-- ==== Sys2Proof/Word.lean ====
section
/-! DEFINITION. The value types of the block (00_scope.md rules R6, R8): every value is an unsigned
bit vector of the width the spec gives it. -/

namespace Sys2Proof

/-- One byte of a buffer or of the byte stream (R6 `BYTE_BITS`). -/
abbrev Byte := BitVec 8

/-- A CAN identifier (R6 `ID_BITS`; PRESUMED, log 20). -/
abbrev Ident := BitVec 11

/-- A DLC code (R6 `DLC_BITS`). -/
abbrev DlcCode := BitVec 4

/-- A byte count or a packet length (R6 `N_BITS`, `LEN_BITS`). -/
abbrev Count := BitVec 7

/-- A WireHeader (30_encoding.md rule R70). -/
abbrev Header := BitVec 16

end Sys2Proof
end

