-- ==== Sys2Proof/Config.lean ====
section
/-! DEFINITION. The parameters the spec marks "argument" (00_scope.md rule R6) and the block's
constants. The parameters are a value of `Config` that the state carries and no step changes
(10_state.md rule R31; DESIGN CHOICE, log 17). -/

namespace Sys2Proof

/-- What OUTBOUND does with a header whose bit 15 is 1 (R6 `RSVD15_POLICY`, R79, D3). -/
inductive Rsvd15Policy where
  | ignore
  | refuse
  deriving DecidableEq, Repr

/-- The open parameters of 92_eei_decisions.md: `RSVD15_POLICY` and `IN_CAP`. -/
structure Config where
  rsvd15 : Rsvd15Policy
  /-- Most bytes one outbound request can carry (R6 `IN_CAP`, D15). -/
  inCap  : Nat
  deriving DecidableEq, Repr

/-- The defaults of R6. -/
def Config.standard : Config := { rsvd15 := .ignore, inCap := 66 }

/-- `IN_CAP` must be at least 66 (R6). -/
abbrev Config.wf (c : Config) : Prop := 66 ≤ c.inCap

/-- Capacity of TXB and of RXB in bytes (R6 `BUF_CAP`). -/
abbrev bufCap : Nat := 66

/-- The longest payload in bytes (R6 `PAYLOAD_MAX`). -/
abbrev payloadMax : Nat := 64

end Sys2Proof
end

