-- ==== Sys2Proof/Machine/State.lean ====
section
/-! DEFINITION. The state of the block and of its boundary (10_state.md rule R20), the events it emits,
the environment's inputs as plain data, and the reasons a step can stop. -/

namespace Sys2Proof.Machine

open Sys2Proof

/-- A byte buffer: cells with strictly rising offsets, none of them 0x00, which is what an unlisted
offset reads as (DESIGN CHOICE, log 3). -/
abbrev Memory := List Host.Cell

/-- The FAULT latch (10_state.md rule R26). The code 3 cannot be expressed (93 U13; DEDUCED, log 24). -/
inductive FaultLatch where
  | none
  /-- `SUBMIT_FAULT`, code 1 (R181). -/
  | submit
  /-- `TRANSMIT_FAULT`, code 2 (R181). -/
  | transmit
  deriving DecidableEq, Repr

/-- How far the outbound agent is (R32): the phase it does next (DEDUCED, log 27). -/
inductive OPhase where
  | idle
  | o1
  | o2
  | o3
  /-- O4 with `copied` bytes copied: INBOUND may fall between two copies (R189). -/
  | o4 (copied : Nat)
  /-- O5; `called` when `submit` has been emitted and not answered (R185). -/
  | o5 (called : Bool)
  deriving DecidableEq, Repr

/-- How far the inbound agent is (R32, 43_inbound_serializer.md rule R140): the phase it does next (DEDUCED, log 27). -/
inductive IPhase where
  | idle
  | i1a
  | i1b
  | i2
  /-- I3; `called` when `transmit` has been emitted and not answered (R185). -/
  | i3 (called : Bool)
  | i4
  | i5
  deriving DecidableEq, Repr

/-- What a collaborator says when the block looks for its answer (R9, R161, R166); `wait` is no
answer yet (R185). -/
inductive Reply where
  | ok
  | fault
  | wait
  deriving DecidableEq, Repr

/-- A boundary event the block emits, with its arguments by value (R9, R53). -/
inductive Event where
  | submit (id : Ident) (dlc : DlcCode) (payload : List Byte)
  | transmit (buffer : List Byte) (length : Count)
  | toggle
  | rearm
  | faultHandler (code : BitVec 2)
  deriving DecidableEq, Repr

/-- The model's own result port: what a pure operation returned, or what a boundary call executed by
itself was answered (DESIGN CHOICE, log 9). -/
inductive PortValue where
  | none
  | count (n : Count)
  | header (h : Header)
  | fields (id : Ident) (dlc : DlcCode)
  | answer (r : Reply)
  deriving DecidableEq, Repr

/-- What a reset leaves unspecified (10_state.md rule R34): any values, chosen from outside (DESIGN CHOICE, log 7). -/
structure Unspecified where
  txb  : List Byte
  rxb  : List Byte
  oHdr : Header
  oId  : Ident
  oDlc : DlcCode
  oN   : Count
  iId  : Ident
  iDlc : DlcCode
  iN   : Count
  iLen : Count
  diag : Bool
  deriving DecidableEq, Repr

/-- What happens next at the boundary, or how far the block runs (log 1, 26). -/
inductive Stimulus where
  /-- The transport presents a request in IN and fires the host-send trigger (R165). -/
  | request (bytes : List Byte)
  /-- The bus collaborator delivers a frame, leaving `spill` above the payload in RXB (R162). -/
  | frame (id : Ident) (dlc : DlcCode) (payload : List Byte) (spill : List Byte)
  /-- The external initialisation arms the bus notification (70_reset_and_hazards.md rule R213). -/
  | arm
  /-- Reset from outside (R210). -/
  | reset (u : Unspecified)
  /-- The block does one phase of one agent. -/
  | phase
  /-- The block does its next whole operation. -/
  | run
  deriving DecidableEq, Repr

/-- The state. -/
structure State where
  /-- The parameters (R6); no step changes them (R31). -/
  cfg : Config
  /-- Outbound scratch buffer (R22). -/
  txb : Memory
  /-- Inbound scratch buffer (R23). -/
  rxb : Memory
  /-- The outbound request (R25). -/
  inb : Memory
  /-- `IN_LEN` (R25). -/
  inLen : Nat
  /-- Operand latches (R21). -/
  oHdr : Header
  oId : Ident
  oDlc : DlcCode
  oN : Count
  iId : Ident
  iDlc : DlcCode
  iN : Count
  iLen : Count
  /-- The sticky fault latch (R26). -/
  fault : FaultLatch
  /-- Whether the bus collaborator may deliver (R28). -/
  rxArmed : Bool
  /-- Level of the diagnostic output (R29). -/
  diag : Bool
  oPhase : OPhase
  iPhase : IPhase
  /-- The host-send trigger has fired and is not served (R186; DEDUCED, log 31). -/
  hostSend : Bool
  /-- The bus-receive trigger has fired and is not served (R186, R214 `NoPendingDelivery`; DEDUCED, log 31). -/
  rxTrigger : Bool
  /-- The model's own result port (DESIGN CHOICE, log 9). -/
  port : PortValue
  /-- The events emitted so far, oldest first (DESIGN CHOICE, log 10). -/
  events : List Event
  /-- What the environment and the schedule do next (DESIGN CHOICE, log 1). -/
  agenda : List Stimulus
  /-- The answers `submit` will get (DESIGN CHOICE, log 2). -/
  submitReplies : List Reply
  /-- The answers `transmit` will get (DESIGN CHOICE, log 2). -/
  transmitReplies : List Reply
  /-- What the bus collaborator leaves above the payload at its next deliver (DESIGN CHOICE, log 8). -/
  spill : List Byte
  deriving DecidableEq, Repr

/-- Reasons a step stops with a fault of the model (never the spec's FAULT, which is a next state). -/
inductive Fault where
  /-- Raised by `deliver` executed while `rx_armed = 0`: the collaborator's step is not enabled
  (93 U15 `stuck`). Safe: the spec has no such run. -/
  | deliverNotArmed
  /-- Raised by an OUTBOUND or INBOUND phase whose access lies outside its buffer, which only a state
  that no run reaches can ask for (20_memory.md rule R54; DEDUCED, log 21). Safe. -/
  | outOfBuffer
  deriving DecidableEq, Repr

/-- Reasons an operation has no meaning. -/
inductive Refusal where
  /-- Raised by an arm of `exec` whose instruction is not modelled. Safe. -/
  | notModelled (mnemonic : String)
  /-- Raised by OUTBOUND and the packets: fewer than 2 bytes (R128). Safe. -/
  | shortHeader
  /-- Raised by OUTBOUND and the packets: bit 15 set under policy `refuse` (R123). Safe. -/
  | reservedBitSet
  /-- Raised by OUTBOUND and the packets: fewer than `2 + n` bytes (R129). Safe. -/
  | shortPayload
  /-- Raised when a presented request has more than `IN_CAP` bytes (R25; DEDUCED, log 14). Safe. -/
  | requestTooLong
  /-- Raised by `submit` and `deliver` with a payload not of `ByteCount(dlc)` bytes (R160, R162; DEDUCED, log 13). Safe. -/
  | frameContract
  /-- Raised by `transmit` with a length that is no packet length or not the buffer's (R166; DEDUCED, log 13). Safe. -/
  | packetContract
  /-- Raised by `fault_handler` with a code that is never sent (R168; DEDUCED, log 13). Safe. -/
  | faultCodeReserved
  deriving DecidableEq, Repr

/-- What a meaning answers. -/
abbrev Answer := Host.Outcome State Fault Refusal

/-- The machine right after reset (R34, R210), with the values of log 3 to 6, 17 and 32 where the spec
gives none. -/
def State.reset : State where
  cfg := Config.standard
  txb := []
  rxb := []
  inb := []
  inLen := 0
  oHdr := 0
  oId := 0
  oDlc := 0
  oN := 0
  iId := 0
  iDlc := 0
  iN := 0
  iLen := 0
  fault := .none
  rxArmed := false
  diag := false
  oPhase := .idle
  iPhase := .idle
  hostSend := false
  rxTrigger := false
  port := .none
  events := []
  agenda := []
  submitReplies := []
  transmitReplies := []
  spill := []

end Sys2Proof.Machine
end

