-- ==== Sys2Proof/Machine/Flags.lean ====
section
/-! DEFINITION. The one flag of the block, the FAULT latch (10_state.md rule R26), and the conditions
on it under which an operation starts (rules R131, R150, R184). No operation sets a flag as a side
effect of computing. -/

namespace Sys2Proof.Machine

open Sys2Proof

/-- The two-bit value of the latch (R26). -/
def FaultLatch.code : FaultLatch → BitVec 2
  | .none => 0
  | .submit => 1
  | .transmit => 2

/-- `raise Fault(code)`, part (1): `FAULT <- code` (R183). -/
def State.setFault (c : FaultLatch) (s : State) : State := { s with fault := c }

/-- An OUTBOUND may start: the agent is idle and FAULT = 0 (R131). -/
abbrev State.outboundStarts (s : State) : Prop := s.fault = .none ∧ s.oPhase = .idle

/-- An INBOUND may start: FAULT = 0 and, which R150 shows to hold, the agent is idle. -/
abbrev State.inboundStarts (s : State) : Prop := s.fault = .none ∧ s.iPhase = .idle

end Sys2Proof.Machine
end

