-- ==== Sys2Proof/Machine/Operands.lean ====
section
/-! DEFINITION. The pure operand forms: the DLC lookup table, the header codec, and the pure
functions that OUTBOUND and INBOUND compute. No state is read or written here. -/

namespace Sys2Proof

/-- `DlcTable` (40_length_codec.md rule R100; R30: a constant, no state). -/
def dlcTable : Vector Count 16 :=
  #v[0, 1, 2, 3, 4, 5, 6, 7, 8, 12, 16, 20, 24, 32, 48, 64]

/-- `ByteCount(d)` (R101). The index is four bits wide, so no lookup is out of range (R104). -/
def byteCount (d : DlcCode) : Count := dlcTable[d.toFin]

/-- The packet length `2 + ByteCount(d)` (R75, R103). -/
def packetLength (d : DlcCode) : Count := 2 + byteCount d

/-- `packHeader(id, d)`: masks and shifts on a 16-bit value (R74, R110, R116). -/
def packHeader (id : Ident) (d : DlcCode) : Header :=
  id.setWidth 16 ||| (d.setWidth 16 <<< 11)

/-- The identifier field `h & 0x07FF` (R73). -/
def headerId (h : Header) : Ident := (h &&& 0x07FF#16).setWidth 11

/-- The DLC field `(h >> 11) & 0xF`: masked to four bits (R73, R223; PRESUMED, log 19). -/
def headerDlc (h : Header) : DlcCode := ((h >>> 11) &&& 0xF#16).setWidth 4

/-- `unpackHeader(h)` (R111); bit 15 reaches neither field. -/
def unpackHeader (h : Header) : Ident × DlcCode := (headerId h, headerDlc h)

/-- Header bit 15 (R70 `rsvd`). -/
def headerRsvd (h : Header) : Bool := h.getLsbD 15

/-- The two stream bytes of a header, low byte first (R71, R112). -/
def hdrBytes (h : Header) : List Byte := [h.setWidth 8, (h >>> 8).setWidth 8]

/-- The header that two stream bytes spell (R44, R112). -/
def hdrOfBytes (b0 b1 : Byte) : Header := b1 ++ b0

/-- The header at the start of a request (R121). -/
def headerOf (bytes : List Byte) : Header := hdrOfBytes (bytes.getD 0 0) (bytes.getD 1 0)

/-- Byte 0 of a header with identifier `id`, as INBOUND phase I1a writes it (R141). -/
def idLowByte (id : Ident) : Byte := id.setWidth 8

/-- Byte 1 of a header with identifier `id` before the DLC code is put in (R141). -/
def idHighByte (id : Ident) : Byte := (id >>> 8).setWidth 8

/-- The DLC code at its place in byte 1, `dlc << 3` (R142). -/
def dlcInByte1 (d : DlcCode) : Byte := d.setWidth 8 <<< 3

/-- What OUTBOUND computes from a request (42_outbound_deserializer.md rule R132). -/
def deserialize (bytes : List Byte) : Ident × DlcCode × List Byte :=
  let d := headerDlc (headerOf bytes)
  (headerId (headerOf bytes), d, (bytes.drop 2).take (byteCount d).toNat)

/-- What INBOUND computes from a frame (43_inbound_serializer.md rule R151). -/
def serialize (id : Ident) (d : DlcCode) (payload : List Byte) : List Byte :=
  hdrBytes (packHeader id d) ++ payload

/-- The length a host reads off a packet's second byte, `2 + DlcTable[byte1[6:3]]` (R80). -/
def lengthFromByte1 (b1 : Byte) : Count := packetLength ((b1 >>> 3).setWidth 4)

/-- Is `n` one of the sixteen packet lengths (R75, R143)? -/
def isPacketLength (n : Count) : Bool :=
  (List.range 16).any fun k => packetLength (BitVec.ofNat 4 k) == n

end Sys2Proof
end

