-- ==== Sys2Proof/Machine/Ops.lean ====
section
/-! DEFINITION. The named operations over buffers and boundary state that the meanings share: byte
access, events, the two calls and their answers, taking a fault, reset. -/

namespace Sys2Proof.Machine

open Sys2Proof

/-- Continue with a next state; a stop stays. -/
def andThen (r : Answer) (f : State → Answer) : Answer :=
  match r with
  | .next s => f s
  | .fault e => .fault e
  | .refused e => .refused e

/-! ### Buffers (20_memory.md) -/

/-- What an offset that no cell lists reads as (DESIGN CHOICE, log 3). -/
def Memory.unlisted : Byte := 0

/-- One byte of a buffer. A read changes nothing (R48). -/
def Memory.read : Memory → Nat → Byte
  | [], _ => Memory.unlisted
  | (k, v) :: m, a => if a = k then v else Memory.read m a

/-- `MemWrite(B, a, 1, b)`: no other byte changes (R9). The canonical form is kept. -/
def Memory.write : Memory → Nat → Byte → Memory
  | [], a, b => if b = Memory.unlisted then [] else [(a, b)]
  | (k, v) :: m, a, b =>
    if a < k then (if b = Memory.unlisted then (k, v) :: m else (a, b) :: (k, v) :: m)
    else if a = k then (if b = Memory.unlisted then m else (a, b) :: m)
    else (k, v) :: Memory.write m a b

/-- `MemRead(B, a, n)` (R9). -/
def Memory.readRange (m : Memory) (a : Nat) : Nat → List Byte
  | 0 => []
  | n + 1 => Memory.read m a :: Memory.readRange m (a + 1) n

/-- `MemWrite(B, a, n, v)` with `n` the list's length (R9). -/
def Memory.writeRange (m : Memory) (a : Nat) : List Byte → Memory
  | [] => m
  | b :: bs => Memory.writeRange (Memory.write m a b) (a + 1) bs

/-- A buffer that holds `bytes` from offset 0. -/
def Memory.ofBytes (bytes : List Byte) : Memory := Memory.writeRange [] 0 bytes

/-- Offsets rise strictly from `lo` on, and no cell holds the unlisted byte. -/
def Memory.wfFrom : Nat → Memory → Bool
  | _, [] => true
  | lo, (k, v) :: m => decide (lo ≤ k) && decide (v ≠ Memory.unlisted) && Memory.wfFrom (k + 1) m

/-- The canonical form. -/
def Memory.wf (m : Memory) : Bool := Memory.wfFrom 0 m

/-- Every listed offset lies below `cap`. -/
def Memory.below (cap : Nat) (m : Memory) : Bool := m.all fun c => decide (c.1 < cap)

/-- The request in IN: offsets `0 .. IN_LEN-1` (R25, R42). -/
def State.request (s : State) : List Byte := Memory.readRange s.inb 0 s.inLen

/-- The transport places a request in IN, sets IN_LEN and fires the host-send trigger (R165); a request
over `IN_CAP` bytes cannot be placed (R25; DEDUCED, log 14). -/
def presentRequest (bytes : List Byte) (s : State) : Answer :=
  if bytes.length ≤ s.cfg.inCap then
    .next { s with inb := Memory.ofBytes bytes, inLen := bytes.length, hostSend := true }
  else .refused .requestTooLong

/-! ### Events and calls (44_collaborator_ops.md) -/

/-- `emit E(args)` (R9). -/
def State.emit (e : Event) (s : State) : State := { s with events := s.events ++ [e] }

/-- The result of an operation executed by itself (DESIGN CHOICE, log 9). -/
def State.withPort (v : PortValue) (s : State) : State := { s with port := v }

/-- Look for the bus collaborator's answer to `submit` (R161); none listed is none yet (DESIGN CHOICE, log 2). -/
def takeSubmitReply (s : State) : Reply × State :=
  match s.submitReplies with
  | [] => (.wait, s)
  | r :: rs => (r, { s with submitReplies := rs })

/-- Look for the transport's answer to `transmit` (R166). -/
def takeTransmitReply (s : State) : Reply × State :=
  match s.transmitReplies with
  | [] => (.wait, s)
  | r :: rs => (r, { s with transmitReplies := rs })

/-- `r <- call submit(id, dlc, payload)` (R160); the block's state is not changed by it, and
the payload is taken by value (R53; PRESUMED, log 18). -/
def callSubmit (id : Ident) (d : DlcCode) (payload : List Byte) (s : State) : Reply × State :=
  takeSubmitReply (s.emit (.submit id d payload))

/-- `r <- call transmit(buffer, length)` (R166). -/
def callTransmit (buffer : List Byte) (length : Count) (s : State) : Reply × State :=
  takeTransmitReply (s.emit (.transmit buffer length))

/-- `emit toggle`: the level is inverted (R167). -/
def doToggle (s : State) : State := State.emit .toggle { s with diag := !s.diag }

/-- `emit rearm`: `rx_armed <- 1` (R164). -/
def doRearm (s : State) : State := State.emit .rearm { s with rxArmed := true }

/-! ### Taking a fault, and the one way out of it (60_exceptions.md) -/

/-- `fault_handler(code)`: the event, and control does not return to the operation that raised it
(R168): code 1 is raised by OUTBOUND only and code 2 by INBOUND only (R181; DEDUCED, log 23). -/
def callFaultHandler (code : BitVec 2) (s : State) : State :=
  let s := s.emit (.faultHandler code)
  if code = 1 then { s with oPhase := .idle }
  else if code = 2 then { s with iPhase := .idle }
  else s

/-- `raise Fault(c)`: `FAULT <- code`, then `fault_handler(code)`, and the operation ends (R183). -/
def raiseFault (c : FaultLatch) (s : State) : State := callFaultHandler c.code (s.setFault c)

/-- Reset, the only thing that clears FAULT (R184, R210): both agents idle, no event, no request; TXB,
RXB, the latches and `diag` take any values `u`; `rx_armed` is not set by it (R34; log 6, 7). -/
def applyReset (u : Unspecified) (s : State) : State :=
  { s with
    txb := Memory.ofBytes (u.txb.take bufCap)
    rxb := Memory.ofBytes (u.rxb.take bufCap)
    inb := []
    inLen := 0
    oHdr := u.oHdr
    oId := u.oId
    oDlc := u.oDlc
    oN := u.oN
    iId := u.iId
    iDlc := u.iDlc
    iN := u.iN
    iLen := u.iLen
    fault := .none
    diag := u.diag
    oPhase := .idle
    iPhase := .idle
    hostSend := false
    rxTrigger := false }

end Sys2Proof.Machine
end

