-- ==== Sys2Proof/Syntax.lean ====
section
/-! DEFINITION. The operations of the block: one constructor per row of spec/opcode_table.json
(00_scope.md rule R5: an instruction is an operation, the variable-length instruction is the
WirePacket). -/

namespace Sys2Proof

/-- `wpDlc<d> rsvd id payload` is the WirePacket of form `d` (30_encoding.md rules R75, R76): header
bit 15, the identifier and the payload bytes, the DLC code being the form's own. -/
inductive Instr where
  | wpDlc0 (rsvd : BitVec 1) (id : Ident) (payload : List Byte)
  | wpDlc1 (rsvd : BitVec 1) (id : Ident) (payload : List Byte)
  | wpDlc2 (rsvd : BitVec 1) (id : Ident) (payload : List Byte)
  | wpDlc3 (rsvd : BitVec 1) (id : Ident) (payload : List Byte)
  | wpDlc4 (rsvd : BitVec 1) (id : Ident) (payload : List Byte)
  | wpDlc5 (rsvd : BitVec 1) (id : Ident) (payload : List Byte)
  | wpDlc6 (rsvd : BitVec 1) (id : Ident) (payload : List Byte)
  | wpDlc7 (rsvd : BitVec 1) (id : Ident) (payload : List Byte)
  | wpDlc8 (rsvd : BitVec 1) (id : Ident) (payload : List Byte)
  | wpDlc9 (rsvd : BitVec 1) (id : Ident) (payload : List Byte)
  | wpDlc10 (rsvd : BitVec 1) (id : Ident) (payload : List Byte)
  | wpDlc11 (rsvd : BitVec 1) (id : Ident) (payload : List Byte)
  | wpDlc12 (rsvd : BitVec 1) (id : Ident) (payload : List Byte)
  | wpDlc13 (rsvd : BitVec 1) (id : Ident) (payload : List Byte)
  | wpDlc14 (rsvd : BitVec 1) (id : Ident) (payload : List Byte)
  | wpDlc15 (rsvd : BitVec 1) (id : Ident) (payload : List Byte)
  /-- `ByteCount(d)` (R101). -/
  | byteCount (d : DlcCode)
  /-- `packHeader(id, d)` (R110). -/
  | packHeader (id : Ident) (d : DlcCode)
  /-- `unpackHeader(h)` (R111). -/
  | unpackHeader (h : Header)
  /-- OUTBOUND of the request in IN (R120). -/
  | outbound
  /-- INBOUND of the frame that the last `deliver` placed (R140). -/
  | inbound
  /-- `submit(id, dlc, payload)` (R160). -/
  | submit (id : Ident) (dlc : DlcCode) (payload : List Byte)
  /-- `deliver(id, dlc, payload)` (R162). -/
  | deliver (id : Ident) (dlc : DlcCode) (payload : List Byte)
  /-- `rearm` (R164). -/
  | rearm
  /-- `transmit(buffer, length)` (R166). -/
  | transmit (buffer : List Byte) (length : Count)
  /-- `toggle` (R167). -/
  | toggle
  /-- `fault_handler(code)` (R168). -/
  | faultHandler (code : BitVec 2)
  deriving DecidableEq, Repr

end Sys2Proof
end

