-- ==== Sys2Proof/WellFormed.lean ====
section
/-! DEFINITION. Which operations are well formed: the length of a payload is the one the DLC code
says (30_encoding.md rules R75, R78), a transmit length is a packet length (R166), a fault code is
one that is sent (R168). Everything else is in range by its width (R104, R169). -/

namespace Sys2Proof

/-- The payload has exactly `ByteCount(d)` bytes. -/
def payloadFits (d : DlcCode) (payload : List Byte) : Bool :=
  payload.length == (byteCount d).toNat

/-- `length` is a packet length and the buffer has that many bytes (R166). -/
def bufferFits (buffer : List Byte) (length : Count) : Bool :=
  isPacketLength length && buffer.length == length.toNat

/-- 1 and 2 are the codes that are sent; 0 and 3 never are (R168, 10_state.md rule R26). -/
def codeIsSent (code : BitVec 2) : Bool := code == 1 || code == 2

/-- The well-formedness of an operation's operands. -/
def Instr.wellFormed : Instr → Bool
  | .wpDlc0 _ _ p => payloadFits 0 p
  | .wpDlc1 _ _ p => payloadFits 1 p
  | .wpDlc2 _ _ p => payloadFits 2 p
  | .wpDlc3 _ _ p => payloadFits 3 p
  | .wpDlc4 _ _ p => payloadFits 4 p
  | .wpDlc5 _ _ p => payloadFits 5 p
  | .wpDlc6 _ _ p => payloadFits 6 p
  | .wpDlc7 _ _ p => payloadFits 7 p
  | .wpDlc8 _ _ p => payloadFits 8 p
  | .wpDlc9 _ _ p => payloadFits 9 p
  | .wpDlc10 _ _ p => payloadFits 10 p
  | .wpDlc11 _ _ p => payloadFits 11 p
  | .wpDlc12 _ _ p => payloadFits 12 p
  | .wpDlc13 _ _ p => payloadFits 13 p
  | .wpDlc14 _ _ p => payloadFits 14 p
  | .wpDlc15 _ _ p => payloadFits 15 p
  | .byteCount _ => true
  | .packHeader _ _ => true
  | .unpackHeader _ => true
  | .outbound => true
  | .inbound => true
  | .submit _ d p => payloadFits d p
  | .deliver _ d p => payloadFits d p
  | .rearm => true
  | .transmit b n => bufferFits b n
  | .toggle => true
  | .faultHandler c => codeIsSent c

end Sys2Proof
end

