-- ==== Sys2Proof/Machine/Collaborators.lean ====
section
/-! DEFINITION. Operation family 5, the boundary operations executed by themselves
(44_collaborator_ops.md; DESIGN CHOICE, log 25). Operands outside a port's contract are refused (R170; DEDUCED, log 13). -/

namespace Sys2Proof.Machine

open Sys2Proof

/-- `submit` (R160): the event and an answer; the block's state is not changed. -/
def execSubmit (id : Ident) (d : DlcCode) (p : List Byte) (s : State) : Answer :=
  if payloadFits d p then
    .next ((callSubmit id d p s).2.withPort (.answer (callSubmit id d p s).1))
  else .refused .frameContract

/-- `transmit` (R166): the event and an answer; the block's state is not changed. -/
def execTransmit (b : List Byte) (n : Count) (s : State) : Answer :=
  if bufferFits b n then
    .next ((callTransmit b n s).2.withPort (.answer (callTransmit b n s).1))
  else .refused .packetContract

/-- The writes of `deliver` to RXB (R162): the payload from offset 2, and above it whatever the bus
collaborator leaves there (93 U11; DESIGN CHOICE, log 8). Bytes 0 and 1 are not written. -/
def deliverBytes (d : DlcCode) (p spill : List Byte) (m : Memory) : Memory :=
  Memory.writeRange (Memory.writeRange m 2 p) (2 + (byteCount d).toNat)
    (spill.take (payloadMax - (byteCount d).toNat))

/-- `deliver` (R162) and the bus-receive trigger after it, which is dropped while FAULT is not 0
(R163). It is not enabled while `rx_armed = 0` (93 U15; DEDUCED, log 12). -/
def execDeliver (id : Ident) (d : DlcCode) (p : List Byte) (s : State) : Answer :=
  if payloadFits d p = false then .refused .frameContract
  else if s.rxArmed = false then .fault .deliverNotArmed
  else .next { s with
    iId := id
    iDlc := d
    rxb := deliverBytes d p s.spill s.rxb
    spill := []
    rxArmed := false
    rxTrigger := decide (s.fault = .none) }

/-- `rearm` (R164). -/
def execRearm (s : State) : Answer := .next (doRearm s)

/-- `toggle` (R167). -/
def execToggle (s : State) : Answer := .next (doToggle s)

/-- `fault_handler(code)` (R168). -/
def execFaultHandler (code : BitVec 2) (s : State) : Answer :=
  if codeIsSent code then .next (callFaultHandler code s) else .refused .faultCodeReserved

end Sys2Proof.Machine
end

