-- ==== Sys2Proof/Machine/HeaderCodec.lean ====
section
/-! DEFINITION. Operation family 2, the header codec (41_header_codec.md). -/

namespace Sys2Proof.Machine

open Sys2Proof

/-- `packHeader(id, d)` (R110). -/
def execPackHeader (id : Ident) (d : DlcCode) (s : State) : Answer :=
  .next (s.withPort (.header (Sys2Proof.packHeader id d)))

/-- `unpackHeader(h)` (R111). -/
def execUnpackHeader (h : Header) (s : State) : Answer :=
  .next (s.withPort (.fields (Sys2Proof.unpackHeader h).1 (Sys2Proof.unpackHeader h).2))

end Sys2Proof.Machine
end

