-- ==== Sys2Proof/Machine/Inbound.lean ====
section
/-! DEFINITION. Operation family 4, INBOUND (43_inbound_serializer.md): its phases, the whole operation
from any phase on, and one phase at a time. -/

namespace Sys2Proof.Machine

open Sys2Proof

/-- The bus-receive trigger starts the operation and is served by it (R150). -/
def startInbound (s : State) : State := { s with rxTrigger := false, iPhase := .i1a }

/-- I1a (R141): a write of bytes 0 and 1, not an OR. -/
def phaseI1a (s : State) : State :=
  { s with
    rxb := Memory.write (Memory.write s.rxb 0 (idLowByte s.iId)) 1 (idHighByte s.iId)
    iPhase := .i1b }

/-- I1b (R142): the DLC code is OR-ed into byte 1. -/
def phaseI1b (s : State) : State :=
  { s with
    rxb := Memory.write s.rxb 1 (Memory.read s.rxb 1 ||| dlcInByte1 s.iDlc)
    iPhase := .i2 }

/-- I2 (R143). -/
def phaseI2 (s : State) : State :=
  { s with
    iN := byteCount s.iDlc
    iLen := 2 + byteCount s.iDlc
    iPhase := .i3 false }

/-- What the answer of `transmit` does (R146): I4 comes next, the operation faults, or it holds in I3
(R185). -/
def settleTransmit (r : Reply × State) : State :=
  match r.1 with
  | .ok => { r.2 with iPhase := .i4 }
  | .fault => raiseFault .transmit r.2
  | .wait => { r.2 with iPhase := .i3 true }

/-- I3 (R144): the call with RXB's first `i.len` bytes by value (R53), or a look for its answer. The
bound on `i.len` is false in no state a run reaches (R54; DEDUCED, log 21). -/
def phaseI3 (called : Bool) (s : State) : Answer :=
  if called then .next (settleTransmit (takeTransmitReply s))
  else if s.iLen.toNat ≤ bufCap then
    .next (settleTransmit (callTransmit (Memory.readRange s.rxb 0 s.iLen.toNat) s.iLen s))
  else .fault .outOfBuffer

/-- I4 (R147). -/
def phaseI4 (s : State) : State := { doToggle s with iPhase := .i5 }

/-- I5 (R147): the last thing INBOUND does. -/
def phaseI5 (s : State) : State := { doRearm s with iPhase := .idle }

/-- I4 and I5 where `transmit` was answered `ok`; nothing after a fault or during a hold. -/
def afterTransmit (s : State) : Answer :=
  match s.iPhase with
  | .i4 => .next (phaseI5 (phaseI4 s))
  | _ => .next s

/-- The phases from I3 on. -/
def finishI3 (called : Bool) (s : State) : Answer := andThen (phaseI3 called s) afterTransmit

/-- The rest of an INBOUND that is part-way through. -/
def resumeInbound (s : State) : Answer :=
  match s.iPhase with
  | .idle => .next s
  | .i1a => finishI3 false (phaseI2 (phaseI1b (phaseI1a s)))
  | .i1b => finishI3 false (phaseI2 (phaseI1b s))
  | .i2 => finishI3 false (phaseI2 s)
  | .i3 called => finishI3 called s
  | .i4 => .next (phaseI5 (phaseI4 s))
  | .i5 => .next (phaseI5 s)

/-- One phase of an INBOUND that is part-way through. -/
def inboundPhase (s : State) : Answer :=
  match s.iPhase with
  | .idle => .next s
  | .i1a => .next (phaseI1a s)
  | .i1b => .next (phaseI1b s)
  | .i2 => .next (phaseI2 s)
  | .i3 called => phaseI3 called s
  | .i4 => .next (phaseI4 s)
  | .i5 => .next (phaseI5 s)

/-- The whole INBOUND (R140) of the frame in RXB, `i.id` and `i.dlc`. A trigger that does not start it
changes nothing (R150, R163; DEDUCED, log 15). -/
def execInbound (s : State) : Answer :=
  if s.inboundStarts then resumeInbound (startInbound s) else .next s

end Sys2Proof.Machine
end

