-- ==== Sys2Proof/Machine/LengthCodec.lean ====
section
/-! DEFINITION. Operation family 1, the Length Codec (40_length_codec.md). -/

namespace Sys2Proof.Machine

open Sys2Proof

/-- `ByteCount(d)` (R101): no state of the block, no flag, no event; the result is at the port. -/
def execByteCount (d : DlcCode) (s : State) : Answer := .next (s.withPort (.count (byteCount d)))

end Sys2Proof.Machine
end

