-- ==== Sys2Proof/Decode.lean ====
section
/-! DEFINITION. From bits to operations and back. The one bit-exact contract of the spec is the
WirePacket (30_encoding.md); it is what the host-send port carries and what the machine fetches. The
other operations have no instruction word: what the table gives for them is the pattern of their
operands on the port they arrive at (opcode_table.json; DESIGN CHOICE, log 16), so `decode` is told the port. -/

namespace Sys2Proof

/-- Where an operation's bits arrive (44_collaborator_ops.md rule R169). -/
inductive Port where
  | hostSend
  | byteCount
  | packHeader
  | unpackHeader
  | outbound
  | inbound
  | submit
  | deliver
  | rearm
  | transmit
  | toggle
  | faultHandler
  deriving DecidableEq, Repr

/-- Why bits spell no operation. -/
inductive DecodeError where
  /-- Fewer bytes than the header or the pattern has (R128). -/
  | shortHeader
  /-- Header bit 15 is 1 under `RSVD15_POLICY = refuse` (R79, R123). -/
  | reservedBitSet
  /-- Fewer payload bytes than the DLC code promises (R129). -/
  | shortPayload
  /-- A bit outside the row's pattern is 1. -/
  | outsidePattern
  /-- A transmit length that is no packet length (R166). -/
  | notAPacketLength
  /-- A fault code that is never sent (R168). -/
  | reservedFaultCode
  deriving DecidableEq, Repr

/-- An operation with the bytes that follow it, or the reason there is none. -/
inductive Decoded where
  | ok (i : Instr) (rest : List Byte)
  | reject (e : DecodeError)
  deriving DecidableEq, Repr

/-- The packet of form `d`: the row of 30_encoding.md rule R76 that the DLC code selects. -/
def Instr.packet (d : DlcCode) (rsvd : BitVec 1) (id : Ident) (payload : List Byte) : Instr :=
  match d.toNat with
  | 0 => .wpDlc0 rsvd id payload
  | 1 => .wpDlc1 rsvd id payload
  | 2 => .wpDlc2 rsvd id payload
  | 3 => .wpDlc3 rsvd id payload
  | 4 => .wpDlc4 rsvd id payload
  | 5 => .wpDlc5 rsvd id payload
  | 6 => .wpDlc6 rsvd id payload
  | 7 => .wpDlc7 rsvd id payload
  | 8 => .wpDlc8 rsvd id payload
  | 9 => .wpDlc9 rsvd id payload
  | 10 => .wpDlc10 rsvd id payload
  | 11 => .wpDlc11 rsvd id payload
  | 12 => .wpDlc12 rsvd id payload
  | 13 => .wpDlc13 rsvd id payload
  | 14 => .wpDlc14 rsvd id payload
  | _ => .wpDlc15 rsvd id payload

/-- A payload of `ByteCount(d)` bytes is cut from `bytes` and given to `make`. -/
def takePayload (d : DlcCode) (bytes : List Byte) (make : List Byte → Instr) : Decoded :=
  if bytes.length < (byteCount d).toNat then .reject .shortPayload
  else .ok (make (bytes.take (byteCount d).toNat)) (bytes.drop (byteCount d).toNat)

/-- The packet at the start of a request; the checks in the order of 60_exceptions.md rule R187. -/
def decodePacket (policy : Rsvd15Policy) : List Byte → Decoded
  | b0 :: b1 :: rest =>
    let h := hdrOfBytes b0 b1
    if policy = .refuse ∧ headerRsvd h = true then .reject .reservedBitSet
    else takePayload (headerDlc h) rest
      (Instr.packet (headerDlc h) ((h >>> 15).setWidth 1) (headerId h))
  | _ => .reject .shortHeader

/-- Two bytes of the pattern `0 dddd iiiiiiiiiii` (rows packHeader, submit, deliver). -/
def withIdDlc (bytes : List Byte) (next : Ident → DlcCode → List Byte → Decoded) : Decoded :=
  match bytes with
  | b0 :: b1 :: rest =>
    let h := hdrOfBytes b0 b1
    if headerRsvd h = true then .reject .outsidePattern
    else next (headerId h) (headerDlc h) rest
  | _ => .reject .shortHeader

/-- The operation that `bytes` spell at a port. Total; it rejects by name. -/
def decode (port : Port) (policy : Rsvd15Policy) (bytes : List Byte) : Decoded :=
  match port with
  | .hostSend => decodePacket policy bytes
  | .byteCount =>
    match bytes with
    | b :: rest =>
      if b.toNat < 16 then .ok (.byteCount (b.setWidth 4)) rest else .reject .outsidePattern
    | [] => .reject .shortHeader
  | .packHeader => withIdDlc bytes fun id d rest => .ok (.packHeader id d) rest
  | .unpackHeader =>
    match bytes with
    | b0 :: b1 :: rest => .ok (.unpackHeader (hdrOfBytes b0 b1)) rest
    | _ => .reject .shortHeader
  | .outbound => .ok .outbound bytes
  | .inbound => .ok .inbound bytes
  | .submit => withIdDlc bytes fun id d rest => takePayload d rest (.submit id d)
  | .deliver => withIdDlc bytes fun id d rest => takePayload d rest (.deliver id d)
  | .rearm => .ok .rearm bytes
  | .transmit =>
    match bytes with
    | b :: rest =>
      if ¬ b.toNat < 128 then .reject .outsidePattern
      else if isPacketLength (b.setWidth 7) = false then .reject .notAPacketLength
      else if rest.length < b.toNat then .reject .shortPayload
      else .ok (.transmit (rest.take b.toNat) (b.setWidth 7)) (rest.drop b.toNat)
    | [] => .reject .shortHeader
  | .toggle => .ok .toggle bytes
  | .faultHandler =>
    match bytes with
    | b :: rest =>
      if ¬ b.toNat < 4 then .reject .outsidePattern
      else if codeIsSent (b.setWidth 2) = false then .reject .reservedFaultCode
      else .ok (.faultHandler (b.setWidth 2)) rest
    | [] => .reject .shortHeader

/-- The port at which an operation arrives. -/
def portOf : Instr → Port
  | .wpDlc0 _ _ _ => .hostSend
  | .wpDlc1 _ _ _ => .hostSend
  | .wpDlc2 _ _ _ => .hostSend
  | .wpDlc3 _ _ _ => .hostSend
  | .wpDlc4 _ _ _ => .hostSend
  | .wpDlc5 _ _ _ => .hostSend
  | .wpDlc6 _ _ _ => .hostSend
  | .wpDlc7 _ _ _ => .hostSend
  | .wpDlc8 _ _ _ => .hostSend
  | .wpDlc9 _ _ _ => .hostSend
  | .wpDlc10 _ _ _ => .hostSend
  | .wpDlc11 _ _ _ => .hostSend
  | .wpDlc12 _ _ _ => .hostSend
  | .wpDlc13 _ _ _ => .hostSend
  | .wpDlc14 _ _ _ => .hostSend
  | .wpDlc15 _ _ _ => .hostSend
  | .byteCount _ => .byteCount
  | .packHeader _ _ => .packHeader
  | .unpackHeader _ => .unpackHeader
  | .outbound => .outbound
  | .inbound => .inbound
  | .submit _ _ _ => .submit
  | .deliver _ _ _ => .deliver
  | .rearm => .rearm
  | .transmit _ _ => .transmit
  | .toggle => .toggle
  | .faultHandler _ => .faultHandler

/-- The header `r dddd iiiiiiiiiii` of a packet (R70). -/
def packetHeader (rsvd : BitVec 1) (d : DlcCode) (id : Ident) : Header := rsvd ++ d ++ id

/-- The bytes of a packet of form `d` (R75). -/
def packetBytes (rsvd : BitVec 1) (d : DlcCode) (id : Ident) (payload : List Byte) : List Byte :=
  hdrBytes (packetHeader rsvd d id) ++ payload

/-- The bytes of an operation at its port, from the same tables. -/
def encode : Instr → List Byte
  | .wpDlc0 r id p => packetBytes r 0 id p
  | .wpDlc1 r id p => packetBytes r 1 id p
  | .wpDlc2 r id p => packetBytes r 2 id p
  | .wpDlc3 r id p => packetBytes r 3 id p
  | .wpDlc4 r id p => packetBytes r 4 id p
  | .wpDlc5 r id p => packetBytes r 5 id p
  | .wpDlc6 r id p => packetBytes r 6 id p
  | .wpDlc7 r id p => packetBytes r 7 id p
  | .wpDlc8 r id p => packetBytes r 8 id p
  | .wpDlc9 r id p => packetBytes r 9 id p
  | .wpDlc10 r id p => packetBytes r 10 id p
  | .wpDlc11 r id p => packetBytes r 11 id p
  | .wpDlc12 r id p => packetBytes r 12 id p
  | .wpDlc13 r id p => packetBytes r 13 id p
  | .wpDlc14 r id p => packetBytes r 14 id p
  | .wpDlc15 r id p => packetBytes r 15 id p
  | .byteCount d => [d.setWidth 8]
  | .packHeader id d => hdrBytes (packetHeader 0 d id)
  | .unpackHeader h => hdrBytes h
  | .outbound => []
  | .inbound => []
  | .submit id d p => packetBytes 0 d id p
  | .deliver id d p => packetBytes 0 d id p
  | .rearm => []
  | .transmit b n => n.setWidth 8 :: b
  | .toggle => []
  | .faultHandler c => [c.setWidth 8]

/-- The 66 bytes, low byte first, of an instruction word whose low `nbits` bits are `w`; all above are
zero (66 is the longest packet, R75). -/
def bytesOfWord (nbits w : Nat) : List Byte :=
  (List.range 66).map fun k => BitVec.ofNat 8 ((w % 2 ^ nbits) >>> (8 * k))

/-- The instruction the fetch decoder reads from a word (default policy, R6). -/
def decodeTableWord (nbits w : Nat) : Option Instr :=
  match decodePacket Config.standard.rsvd15 (bytesOfWord nbits w) with
  | .ok i _ => some i
  | .reject _ => none

end Sys2Proof
end

