-- ==== Sys2Proof/Machine/Outbound.lean ====
section
/-! DEFINITION. Operation family 3, OUTBOUND (42_outbound_deserializer.md): its phases, the whole
operation from any phase on, and one phase at a time (60_exceptions.md rule R189). `req` is the
request, `IN[0 .. IN_LEN-1]`. -/

namespace Sys2Proof.Machine

open Sys2Proof

/-- The host-send trigger starts the operation and is cleared by it (R131, R186). -/
def startOutbound (s : State) : State := { s with hostSend := false, oPhase := .o1 }

/-- O1 (R121), with the two checks around it (R128, R123). -/
def phaseO1 (req : List Byte) (s : State) : Answer :=
  if req.length < 2 then .refused .shortHeader
  else if s.cfg.rsvd15 = .refuse ∧ headerRsvd (headerOf req) = true then .refused .reservedBitSet
  else .next { s with oHdr := headerOf req, oPhase := .o2 }

/-- O2 (R122). -/
def phaseO2 (s : State) : State :=
  { s with
    oId := (unpackHeader s.oHdr).1
    oDlc := (unpackHeader s.oHdr).2
    oPhase := .o3 }

/-- O3 (R124), with the check after it (R129). -/
def phaseO3 (req : List Byte) (s : State) : Answer :=
  if req.length < 2 + (byteCount s.oDlc).toNat then .refused .shortPayload
  else .next { s with oN := byteCount s.oDlc, oPhase := .o4 0 }

/-- The copy of O4 stays inside the request and inside TXB (R54; false in no state a run reaches,
DEDUCED, log 21). -/
abbrev copyInBounds (req : List Byte) (s : State) : Prop :=
  2 + s.oN.toNat ≤ req.length ∧ s.oN.toNat ≤ bufCap

/-- O4 from copy index `k` on (R125): `TXB[k] <- IN[2+k]`, for `k` up to `o.n - 1`. -/
def phaseO4 (req : List Byte) (k : Nat) (s : State) : Answer :=
  if copyInBounds req s then
    .next { s with
      txb := Memory.writeRange s.txb k ((req.drop (2 + k)).take (s.oN.toNat - k))
      oPhase := .o5 false }
  else .fault .outOfBuffer

/-- One byte copy of O4, or its end (R189). -/
def copyStep (req : List Byte) (k : Nat) (s : State) : Answer :=
  if copyInBounds req s then
    if k < s.oN.toNat then
      .next { s with txb := Memory.write s.txb k (req.getD (2 + k) 0), oPhase := .o4 (k + 1) }
    else .next { s with oPhase := .o5 false }
  else .fault .outOfBuffer

/-- What the answer of `submit` does (R127): the operation completes, faults, or holds in O5 (R185). -/
def settleSubmit (r : Reply × State) : State :=
  match r.1 with
  | .ok => { r.2 with oPhase := .idle }
  | .fault => raiseFault .submit r.2
  | .wait => { r.2 with oPhase := .o5 true }

/-- O5 (R126): the call with TXB's first `o.n` bytes by value (R53), or a look for its answer. -/
def phaseO5 (called : Bool) (s : State) : Answer :=
  if called then .next (settleSubmit (takeSubmitReply s))
  else if s.oN.toNat ≤ bufCap then
    .next (settleSubmit (callSubmit s.oId s.oDlc (Memory.readRange s.txb 0 s.oN.toNat) s))
  else .fault .outOfBuffer

/-- The phases from O4, copy index `k`, on. -/
def finishO4 (req : List Byte) (k : Nat) (s : State) : Answer :=
  andThen (phaseO4 req k s) (phaseO5 false)

/-- The phases from O3 on. -/
def finishO3 (req : List Byte) (s : State) : Answer := andThen (phaseO3 req s) (finishO4 req 0)

/-- The phases from O2 on. -/
def finishO2 (req : List Byte) (s : State) : Answer := finishO3 req (phaseO2 s)

/-- The phases from O1 on. -/
def finishO1 (req : List Byte) (s : State) : Answer := andThen (phaseO1 req s) (finishO2 req)

/-- The rest of an OUTBOUND that is part-way through. -/
def resumeOutbound (req : List Byte) (s : State) : Answer :=
  match s.oPhase with
  | .idle => .next s
  | .o1 => finishO1 req s
  | .o2 => finishO2 req s
  | .o3 => finishO3 req s
  | .o4 k => finishO4 req k s
  | .o5 called => phaseO5 called s

/-- One phase of an OUTBOUND that is part-way through, or one byte copy of O4. -/
def outboundPhase (req : List Byte) (s : State) : Answer :=
  match s.oPhase with
  | .idle => .next s
  | .o1 => phaseO1 req s
  | .o2 => .next (phaseO2 s)
  | .o3 => phaseO3 req s
  | .o4 k => copyStep req k s
  | .o5 called => phaseO5 called s

/-- `k` phases, one after another. -/
def outboundPhases : Nat → List Byte → State → Answer
  | 0, _, s => .next s
  | k + 1, req, s => andThen (outboundPhase req s) (outboundPhases k req)

/-- The whole OUTBOUND of a request (R120). A trigger that does not start it changes nothing: FAULT is
not 0, or the agent is inside an operation (R131; DEDUCED, log 15). -/
def outboundOf (req : List Byte) (s : State) : Answer :=
  if s.outboundStarts then finishO1 req (startOutbound s) else .next s

/-- OUTBOUND of the request in IN (R120). -/
def execOutbound (s : State) : Answer := outboundOf s.request s

end Sys2Proof.Machine
end

