-- ==== Sys2Proof/Machine/Packets.lean ====
section
/-! DEFINITION. The sixteen WirePacket forms (30_encoding.md rules R75, R76): what the block does with a
packet is OUTBOUND of it (42_outbound_deserializer.md rule R120; DEDUCED, log 22). -/

namespace Sys2Proof.Machine

open Sys2Proof

/-- WP.DLC0: no payload byte. -/
def execWpDlc0 (r : BitVec 1) (id : Ident) (p : List Byte) (s : State) : Answer :=
  outboundOf (packetBytes r 0 id p) s

/-- WP.DLC1: 1 payload byte. -/
def execWpDlc1 (r : BitVec 1) (id : Ident) (p : List Byte) (s : State) : Answer :=
  outboundOf (packetBytes r 1 id p) s

/-- WP.DLC2: 2 payload bytes. -/
def execWpDlc2 (r : BitVec 1) (id : Ident) (p : List Byte) (s : State) : Answer :=
  outboundOf (packetBytes r 2 id p) s

/-- WP.DLC3: 3 payload bytes. -/
def execWpDlc3 (r : BitVec 1) (id : Ident) (p : List Byte) (s : State) : Answer :=
  outboundOf (packetBytes r 3 id p) s

/-- WP.DLC4: 4 payload bytes. -/
def execWpDlc4 (r : BitVec 1) (id : Ident) (p : List Byte) (s : State) : Answer :=
  outboundOf (packetBytes r 4 id p) s

/-- WP.DLC5: 5 payload bytes. -/
def execWpDlc5 (r : BitVec 1) (id : Ident) (p : List Byte) (s : State) : Answer :=
  outboundOf (packetBytes r 5 id p) s

/-- WP.DLC6: 6 payload bytes. -/
def execWpDlc6 (r : BitVec 1) (id : Ident) (p : List Byte) (s : State) : Answer :=
  outboundOf (packetBytes r 6 id p) s

/-- WP.DLC7: 7 payload bytes. -/
def execWpDlc7 (r : BitVec 1) (id : Ident) (p : List Byte) (s : State) : Answer :=
  outboundOf (packetBytes r 7 id p) s

/-- WP.DLC8: 8 payload bytes. -/
def execWpDlc8 (r : BitVec 1) (id : Ident) (p : List Byte) (s : State) : Answer :=
  outboundOf (packetBytes r 8 id p) s

/-- WP.DLC9: 12 payload bytes. -/
def execWpDlc9 (r : BitVec 1) (id : Ident) (p : List Byte) (s : State) : Answer :=
  outboundOf (packetBytes r 9 id p) s

/-- WP.DLC10: 16 payload bytes. -/
def execWpDlc10 (r : BitVec 1) (id : Ident) (p : List Byte) (s : State) : Answer :=
  outboundOf (packetBytes r 10 id p) s

/-- WP.DLC11: 20 payload bytes. -/
def execWpDlc11 (r : BitVec 1) (id : Ident) (p : List Byte) (s : State) : Answer :=
  outboundOf (packetBytes r 11 id p) s

/-- WP.DLC12: 24 payload bytes. -/
def execWpDlc12 (r : BitVec 1) (id : Ident) (p : List Byte) (s : State) : Answer :=
  outboundOf (packetBytes r 12 id p) s

/-- WP.DLC13: 32 payload bytes. -/
def execWpDlc13 (r : BitVec 1) (id : Ident) (p : List Byte) (s : State) : Answer :=
  outboundOf (packetBytes r 13 id p) s

/-- WP.DLC14: 48 payload bytes. -/
def execWpDlc14 (r : BitVec 1) (id : Ident) (p : List Byte) (s : State) : Answer :=
  outboundOf (packetBytes r 14 id p) s

/-- WP.DLC15: 64 payload bytes. -/
def execWpDlc15 (r : BitVec 1) (id : Ident) (p : List Byte) (s : State) : Answer :=
  outboundOf (packetBytes r 15 id p) s

end Sys2Proof.Machine
end

