-- ==== Sys2Proof/Machine/Dispatch.lean ====
section
/-! DEFINITION. One arm per operation, each one direct call of its meaning. -/

namespace Sys2Proof.Machine

open Sys2Proof

def exec (i : Instr) (s : State) : Host.Outcome State Fault Refusal :=
  match i with
  | .wpDlc0 r id p => Sys2Proof.Machine.execWpDlc0 r id p s
  | .wpDlc1 r id p => Sys2Proof.Machine.execWpDlc1 r id p s
  | .wpDlc2 r id p => Sys2Proof.Machine.execWpDlc2 r id p s
  | .wpDlc3 r id p => Sys2Proof.Machine.execWpDlc3 r id p s
  | .wpDlc4 r id p => Sys2Proof.Machine.execWpDlc4 r id p s
  | .wpDlc5 r id p => Sys2Proof.Machine.execWpDlc5 r id p s
  | .wpDlc6 r id p => Sys2Proof.Machine.execWpDlc6 r id p s
  | .wpDlc7 r id p => Sys2Proof.Machine.execWpDlc7 r id p s
  | .wpDlc8 r id p => Sys2Proof.Machine.execWpDlc8 r id p s
  | .wpDlc9 r id p => Sys2Proof.Machine.execWpDlc9 r id p s
  | .wpDlc10 r id p => Sys2Proof.Machine.execWpDlc10 r id p s
  | .wpDlc11 r id p => Sys2Proof.Machine.execWpDlc11 r id p s
  | .wpDlc12 r id p => Sys2Proof.Machine.execWpDlc12 r id p s
  | .wpDlc13 r id p => Sys2Proof.Machine.execWpDlc13 r id p s
  | .wpDlc14 r id p => Sys2Proof.Machine.execWpDlc14 r id p s
  | .wpDlc15 r id p => Sys2Proof.Machine.execWpDlc15 r id p s
  | .byteCount d => Sys2Proof.Machine.execByteCount d s
  | .packHeader id d => Sys2Proof.Machine.execPackHeader id d s
  | .unpackHeader h => Sys2Proof.Machine.execUnpackHeader h s
  | .outbound => Sys2Proof.Machine.execOutbound s
  | .inbound => Sys2Proof.Machine.execInbound s
  | .submit id d p => Sys2Proof.Machine.execSubmit id d p s
  | .deliver id d p => Sys2Proof.Machine.execDeliver id d p s
  | .rearm => Sys2Proof.Machine.execRearm s
  | .transmit b n => Sys2Proof.Machine.execTransmit b n s
  | .toggle => Sys2Proof.Machine.execToggle s
  | .faultHandler c => Sys2Proof.Machine.execFaultHandler c s

end Sys2Proof.Machine
end

