-- ==== Sys2Proof/Machine/Schedule.lean ====
section
/-! DEFINITION. What runs next: the triggers, their priority, preemption, and the environment's moves
(60_exceptions.md rules R184 to R190; log 1, 11, 26). -/

namespace Sys2Proof.Machine

open Sys2Proof

/-- The refusal of a request whose bytes spell no packet (R128, R129, R123). The last three reasons
belong to other ports and never come from a request. -/
def refusalOf : DecodeError → Refusal
  | .shortHeader => .shortHeader
  | .reservedBitSet => .reservedBitSet
  | .shortPayload => .shortPayload
  | .outsidePattern => .packetContract
  | .notAPacketLength => .packetContract
  | .reservedFaultCode => .faultCodeReserved

/-- The fetch: the packet that the request in IN begins with, executed (R120, R132). -/
def fetchAndExec (s : State) : Answer :=
  match decodePacket s.cfg.rsvd15 s.request with
  | .ok i _ => exec i s
  | .reject e => .refused (refusalOf e)

/-- What the block has to do next (R184, R187, R189). -/
inductive Work where
  | nothing
  /-- An INBOUND is part-way through: nothing else in the block can run (R185, R189). -/
  | resumeInbound
  /-- A delivered frame is to be served; INBOUND goes first (R187). -/
  | startInbound
  | resumeOutbound
  /-- A request waits in IN. -/
  | startOutbound
  deriving DecidableEq, Repr

/-- The scheduler. While FAULT is not 0 nothing starts and nothing resumes (R184; PRESUMED, log 30). -/
def State.work (s : State) : Work :=
  if s.fault ≠ .none then .nothing
  else if s.iPhase ≠ .idle then .resumeInbound
  else if s.rxTrigger = true then .startInbound
  else if s.oPhase ≠ .idle then .resumeOutbound
  else if s.hostSend = true then .startOutbound
  else .nothing

/-- The block does its next whole operation (R190). -/
def runOperation (s : State) : Answer :=
  match s.work with
  | .nothing => .next s
  | .resumeInbound => Sys2Proof.Machine.resumeInbound s
  | .startInbound => exec .inbound s
  | .resumeOutbound => Sys2Proof.Machine.resumeOutbound s.request s
  | .startOutbound => fetchAndExec s

/-- The block does one phase of one agent (R189). -/
def runPhase (s : State) : Answer :=
  match s.work with
  | .nothing => .next s
  | .resumeInbound => inboundPhase s
  | .startInbound => .next (Sys2Proof.Machine.startInbound s)
  | .resumeOutbound => outboundPhase s.request s
  | .startOutbound => .next (Sys2Proof.Machine.startOutbound s)

/-- The transport may present a request: the outbound agent is idle and no earlier request waits (R165,
R170, R186). -/
abbrev State.mayPresent (s : State) : Prop := s.oPhase = .idle ∧ s.hostSend = false

/-- The external initialisation arms before the first frame (70_reset_and_hazards.md rule R213): no
frame is in the block and no fault has happened (DESIGN CHOICE, log 6). -/
abbrev State.mayArm (s : State) : Prop :=
  s.fault = .none ∧ s.iPhase = .idle ∧ s.rxTrigger = false

/-- One entry of the agenda happens. A move that its party may not make now does not happen (R162,
R165; DESIGN CHOICE, log 26). -/
def applyStimulus (x : Stimulus) (s : State) : Answer :=
  match x with
  | .request bytes => if s.mayPresent then presentRequest bytes s else .next s
  | .frame id d p spill =>
    if s.rxArmed = true then exec (.deliver id d p) { s with spill := spill } else .next s
  | .arm => if s.mayArm then .next { s with rxArmed := true } else .next s
  | .reset u => .next (applyReset u s)
  | .phase => runPhase s
  | .run => runOperation s

/-- One step: the head of the agenda, or the block's next whole operation. -/
def stepOnce (s : State) : Answer :=
  match s.agenda with
  | [] => runOperation s
  | x :: rest => applyStimulus x { s with agenda := rest }

/-- The state in which the bytes of a word are the request that the next step fetches: what the
transport does (R165), with nothing before it (DESIGN CHOICE, log 1). -/
def fetchReady (bytes : List Byte) (s : State) : State :=
  { s with
    inb := Memory.ofBytes bytes
    inLen := bytes.length
    hostSend := true
    fault := .none
    iPhase := .idle
    rxTrigger := false
    oPhase := .idle
    agenda := [] }

end Sys2Proof.Machine
end

