-- ==== Sys2Proof/Machine/Step.lean ====
section
/-! DEFINITION. The step of the machine, and how a word comes to be its next instruction. -/

namespace Sys2Proof.Machine

open Sys2Proof

/-- One step. -/
def step (s : State) : Host.Outcome State Fault Refusal := stepOnce s

/-- `s` with the packet of a word presented as the request that the next step runs. -/
def State.withFetchWord (s : State) (nbits w : Nat) : State := fetchReady (bytesOfWord nbits w) s

end Sys2Proof.Machine
end

