-- ==== Sys2Proof/Safety.lean ====
section
/-! DEFINITION. What claims rest on: the launch premises, what makes an event canonical, and the
invariant of the machine. -/

namespace Sys2Proof.Machine

open Sys2Proof

/-- `NoFault` (70_reset_and_hazards.md rule R214). A faulted state is never a good final state (93 U7). -/
abbrev State.NoFault (s : State) : Prop := s.fault = .none

/-- `BothIdle` (R214). -/
abbrev State.BothIdle (s : State) : Prop := s.oPhase = .idle ∧ s.iPhase = .idle

/-- `Armed` (R214). -/
abbrev State.Armed (s : State) : Prop := s.rxArmed = true

/-- `NoPendingDelivery` (R214). -/
abbrev State.NoPendingDelivery (s : State) : Prop := s.rxTrigger = false

/-- What may leave the block (30_encoding.md rule R82): a submitted payload has exactly `ByteCount(dlc)`
bytes; a transmitted buffer has `length` bytes, header bit 15 = 0 and the length that its own DLC code
says; a fault code is 1 or 2. -/
def Event.canonical : Event → Bool
  | .submit _ d p => p.length == (byteCount d).toNat
  | .transmit b n =>
    b.length == n.toNat && !headerRsvd (headerOf b) && n == packetLength (headerDlc (headerOf b))
  | .toggle => true
  | .rearm => true
  | .faultHandler c => c == 1 || c == 2

/-- The three buffers keep the canonical form and stay inside their spaces (R40, R54). -/
structure State.BuffersOk (s : State) : Prop where
  txbWf : Memory.wf s.txb = true
  rxbWf : Memory.wf s.rxb = true
  inbWf : Memory.wf s.inb = true
  txbBelow : Memory.below bufCap s.txb = true
  rxbBelow : Memory.below bufCap s.rxb = true
  inbBelow : Memory.below s.inLen s.inb = true
  inLenLe : s.inLen ≤ s.cfg.inCap

/-- `o.id` and `o.dlc` are the fields of `o.hdr`, which is the request's header. -/
abbrev State.FieldsLatched (s : State) : Prop := (s.oId, s.oDlc) = unpackHeader s.oHdr

/-- The outbound latches agree with the phase (R120 to R126). -/
def State.OutboundOk (s : State) : Prop :=
  match s.oPhase with
  | .idle => True
  | .o1 => True
  | .o2 => 2 ≤ s.inLen
  | .o3 => 2 ≤ s.inLen ∧ s.FieldsLatched
  | .o4 k => s.FieldsLatched ∧ s.oN = byteCount s.oDlc ∧ 2 + s.oN.toNat ≤ s.inLen ∧ k ≤ s.oN.toNat
  | .o5 _ => s.FieldsLatched ∧ s.oN = byteCount s.oDlc

/-- RXB begins with the header of the frame in `i.id`, `i.dlc` (R142). -/
abbrev State.HeaderComposed (s : State) : Prop :=
  Memory.readRange s.rxb 0 2 = hdrBytes (packHeader s.iId s.iDlc)

/-- The inbound latches agree with the phase (R140 to R144). -/
def State.InboundOk (s : State) : Prop :=
  match s.iPhase with
  | .idle => True
  | .i1a => True
  | .i1b => Memory.readRange s.rxb 0 2 = [idLowByte s.iId, idHighByte s.iId]
  | .i2 => s.HeaderComposed
  | .i3 _ => s.HeaderComposed ∧ s.iN = byteCount s.iDlc ∧ s.iLen = packetLength s.iDlc
  | .i4 => True
  | .i5 => True

/-- While a frame is in the block, from `deliver` until `rearm`, the bus collaborator may not deliver, and
a frame that INBOUND works on is not also waiting: at most one inbound frame is in flight (R28, R148). -/
abbrev State.OneFrame (s : State) : Prop :=
  (s.iPhase ≠ .idle ∨ s.rxTrigger = true → s.rxArmed = false) ∧
  (s.iPhase ≠ .idle → s.rxTrigger = false)

/-- The invariant of the machine. -/
structure State.Consistent (s : State) : Prop where
  buffers : s.BuffersOk
  outbound : s.OutboundOk
  inbound : s.InboundOk
  oneFrame : s.OneFrame
  canonical : ∀ e ∈ s.events, Event.canonical e = true

end Sys2Proof.Machine
end

