-- ==== Sys2Proof/Certificates/Slice0/Obligations.lean ====
section
/-! DEFINITION. The statements for the provers, by family of operations. Rules are those of spec/. -/

open Sys2Proof Sys2Proof.Machine

/-! ### Words used by the statements -/

/-- The seventeen operations that are an OUTBOUND of a request `req`: OUTBOUND itself, of the request in
IN, and the packet of each form, of its own bytes (the model's reading of the table's rows, log 22). -/
def Sys2Proof.Machine.IsOutboundOf (i : Instr) (s : State) (req : List Byte) : Prop :=
  (i = .outbound ∧ req = s.request) ∨
  ∃ d r id p, i = Instr.packet d r id p ∧ req = packetBytes r d id p

/-- The DLC code in a request's header. -/
abbrev Sys2Proof.Machine.dlcOf (req : List Byte) : DlcCode := (deserialize req).2.1

/-- How many payload bytes a request's header promises. -/
abbrev Sys2Proof.Machine.payloadLen (req : List Byte) : Nat := (byteCount (dlcOf req)).toNat

/-- The request meets its contract: 2 + n bytes, and bit 15 clear where the policy asks for it. -/
def Sys2Proof.Machine.MeetsContract (policy : Rsvd15Policy) (req : List Byte) : Prop :=
  2 + payloadLen req ≤ req.length ∧
  (policy = .refuse → headerRsvd (headerOf req) = false)

/-- The end state of an OUTBOUND of `req` up to its `submit` event: latches, TXB and the event. -/
def Sys2Proof.Machine.submitted (req : List Byte) (s : State) : State :=
  { s with
    hostSend := false
    oHdr := headerOf req
    oId := (deserialize req).1
    oDlc := dlcOf req
    oN := byteCount (dlcOf req)
    txb := Memory.writeRange s.txb 0 (deserialize req).2.2
    events := s.events ++ [.submit (deserialize req).1 (dlcOf req) (deserialize req).2.2] }

/-- The end state of an INBOUND up to its `transmit` event: RXB, latches and the event. -/
def Sys2Proof.Machine.transmitted (s : State) : State :=
  { s with
    rxTrigger := false
    rxb := Memory.writeRange s.rxb 0 (hdrBytes (packHeader s.iId s.iDlc))
    iN := byteCount s.iDlc
    iLen := packetLength s.iDlc
    events := s.events ++ [.transmit
      (serialize s.iId s.iDlc (Memory.readRange s.rxb 2 (byteCount s.iDlc).toNat))
      (packetLength s.iDlc)] }

/-! ### Length Codec -/

/-- R100: the table. -/
def Obligations.ByteCountIsTheTable : Prop :=
  ∀ d : DlcCode, (byteCount d).toNat =
    [0, 1, 2, 3, 4, 5, 6, 7, 8, 12, 16, 20, 24, 32, 48, 64].getD d.toNat 0

/-- What the spec derives from the table in R102 and R103: strictly increasing, hence monotone and injective;
the three arithmetic pieces; the 49 counts of 0..64 that no code expresses; the bounds of the count and of
the packet length, which does not wrap. -/
def Obligations.ByteCountTableProperties : Prop :=
  (∀ d e : DlcCode, d.toNat < e.toNat → (byteCount d).toNat < (byteCount e).toNat) ∧
  (∀ d e : DlcCode, d.toNat ≤ e.toNat → (byteCount d).toNat ≤ (byteCount e).toNat) ∧
  (∀ d e : DlcCode, byteCount d = byteCount e → d = e) ∧
  (∀ d : DlcCode, d.toNat ≤ 8 → (byteCount d).toNat = d.toNat) ∧
  (∀ d : DlcCode, 9 ≤ d.toNat → d.toNat ≤ 12 → (byteCount d).toNat = 8 + 4 * (d.toNat - 8)) ∧
  (∀ d : DlcCode, 13 ≤ d.toNat → (byteCount d).toNat = 16 * (d.toNat - 11)) ∧
  (((List.range 65).filter fun n => decide (∀ d : DlcCode, (byteCount d).toNat ≠ n)).length = 49) ∧
  (∀ d : DlcCode, (byteCount d).toNat ≤ 64 ∧ (packetLength d).toNat = 2 + (byteCount d).toNat ∧
    2 ≤ (packetLength d).toNat ∧ (packetLength d).toNat ≤ 66)

/-- `ByteCount` executed by itself completes in every state; the result stands at the model's own result
port (log 9) and nothing else changes. -/
def Obligations.ByteCountCompletes : Prop :=
  ∀ (d : DlcCode) (s : State), exec (.byteCount d) s = .next { s with port := .count (byteCount d) }

/-! ### Header codec -/

/-- R110: the pattern `0 dddd iiiiiiiiiii`, with the rule's corner cases and worked examples (the header and bytes of
0x123, 9 are the spec's own derivation). -/
def Obligations.PackHeaderPattern : Prop :=
  (∀ (id : Ident) (d : DlcCode), packHeader id d = (0#1 ++ d ++ id : BitVec 16)) ∧
  packHeader 0 0 = 0x0000 ∧ packHeader 0x7FF 15 = 0x7FFF ∧ packHeader 0x7FF 0 = 0x07FF ∧
  packHeader 0 15 = 0x7800 ∧
  packHeader 0x55 9 = 0x4855 ∧ hdrBytes (packHeader 0x55 9) = [0x55, 0x48] ∧
  packHeader 0x123 9 = 0x4923 ∧ hdrBytes (packHeader 0x123 9) = [0x23, 0x49]

/-- R111: the two slices, whatever bit 15 is, with the rule's corner cases and worked example. -/
def Obligations.UnpackHeaderSlices : Prop :=
  (∀ h : Header, unpackHeader h = (h.extractLsb' 0 11, h.extractLsb' 11 4)) ∧
  unpackHeader 0x0000 = (0, 0) ∧ unpackHeader 0x7FFF = (0x7FF, 15) ∧
  unpackHeader 0xFFFF = (0x7FF, 15) ∧ unpackHeader 0x8000 = (0, 0) ∧
  unpackHeader 0x0800 = (0, 1) ∧ unpackHeader 0x07FF = (0x7FF, 0) ∧ unpackHeader 0x0009 = (9, 0)

/-- R113: the round trip on all pairs. -/
def Obligations.UnpackAfterPack : Prop :=
  ∀ (id : Ident) (d : DlcCode), unpackHeader (packHeader id d) = (id, d)

/-- R114: the other direction; `packHeader` is injective and its image is `0x0000 .. 0x7FFF`. -/
def Obligations.PackAfterUnpack : Prop :=
  (∀ h : Header, packHeader (unpackHeader h).1 (unpackHeader h).2 = h &&& 0x7FFF) ∧
  (∀ (id id' : Ident) (d d' : DlcCode), packHeader id d = packHeader id' d' → id = id' ∧ d = d') ∧
  (∀ h : Header, h.toNat ≤ 0x7FFF ↔ ∃ (id : Ident) (d : DlcCode), packHeader id d = h)

/-- R112: the helpers. -/
def Obligations.HeaderBytesRoundTrip : Prop :=
  (∀ h : Header, hdrBytes h = [h.extractLsb' 0 8, h.extractLsb' 8 8]) ∧
  (∀ b0 b1 : Byte, hdrOfBytes b0 b1 = (b1 ++ b0 : BitVec 16)) ∧
  (∀ h : Header, hdrOfBytes (h.extractLsb' 0 8) (h.extractLsb' 8 8) = h) ∧
  (∀ (id : Ident) (d : DlcCode), hdrBytes (packHeader id d) =
    [id.setWidth 8, (d.setWidth 8 <<< 3) ||| (id.extractLsb' 8 3).setWidth 8])

/-- `packHeader` and `unpackHeader` executed by themselves complete in every state; the result stands at
the model's own result port (log 9) and nothing else changes. -/
def Obligations.HeaderCodecCompletes : Prop :=
  (∀ (id : Ident) (d : DlcCode) (s : State), exec (.packHeader id d) s =
    .next { s with port := .header (0#1 ++ d ++ id : BitVec 16) }) ∧
  (∀ (h : Header) (s : State), exec (.unpackHeader h) s =
    .next { s with port := .fields (h.extractLsb' 0 11) (h.extractLsb' 11 4) })

/-! ### Encodings -/

/-- Decoding an encoded well-formed operation gives it back with what follows it, at every value of
every operand and for all 27 constructors. The bytes of the operations that are no packet are the
model's choice (log 16). -/
def Obligations.DecodeOfEncode : Prop :=
  ∀ (i : Instr) (rest : List Byte), i.wellFormed = true →
    decode (portOf i) .ignore (encode i ++ rest) = .ok i rest

/-- R79, R123 under policy `refuse`: the packets of every form with bit 15 clear decode, those with bit
15 set are rejected by name. -/
def Obligations.RefusePolicyRejectsBit15 : Prop :=
  ∀ (d : DlcCode) (r : BitVec 1) (id : Ident) (p rest : List Byte),
    p.length = (byteCount d).toNat →
    decode .hostSend .refuse (encode (Instr.packet d r id p) ++ rest) =
      if r = 0 then .ok (Instr.packet d r id p) rest else .reject .reservedBitSet

/-- What the fetch decoder accepts is a well-formed packet, and the bytes are its encoding: no two
packets share their bytes and no bit is dropped. -/
def Obligations.EncodeOfDecode : Prop :=
  ∀ (policy : Rsvd15Policy) (bytes : List Byte) (i : Instr) (rest : List Byte),
    decode .hostSend policy bytes = .ok i rest →
    i.wellFormed = true ∧ bytes = encode i ++ rest ∧ ∃ d r id p, i = Instr.packet d r id p

/-- R76: the form is the one whose match is the header under the mask `0x7800` (`0xF800` under
`refuse`), and the packet takes `n` bytes after the header. -/
def Obligations.MaskSelectsTheForm : Prop :=
  ∀ (policy : Rsvd15Policy) (b0 b1 : Byte) (rest : List Byte) (d : DlcCode),
    (b1 ++ b0 : BitVec 16) &&& (if policy = .refuse then 0xF800#16 else 0x7800#16) = d.setWidth 16 <<< 11 →
    (byteCount d).toNat ≤ rest.length →
    decode .hostSend policy (b0 :: b1 :: rest) =
      .ok (Instr.packet d ((b1 ++ b0 : BitVec 16).extractLsb' 15 1)
          ((b1 ++ b0 : BitVec 16).extractLsb' 0 11) (rest.take (byteCount d).toNat))
        (rest.drop (byteCount d).toNat)

/-- R80: the length of a packet is known from its second byte. -/
def Obligations.LengthKnownFromSecondByte : Prop :=
  ∀ (d : DlcCode) (r : BitVec 1) (id : Ident) (p : List Byte), p.length = (byteCount d).toNat →
    (encode (Instr.packet d r id p)).length =
      (lengthFromByte1 ((encode (Instr.packet d r id p)).getD 1 0)).toNat

/-- A few words: six packets written out from R76 and the test vectors V-H, V-O, and two words of operations that
have no instruction word, `fault_handler` and `transmit`, whose packing into bytes is the model's choice (log 16). -/
def Obligations.SomeWordsDecode : Prop :=
  decode .hostSend .ignore [0x09, 0x00] = .ok (.wpDlc0 0 0x009 []) [] ∧
  decode .hostSend .ignore [0xFF, 0x08, 0x5A, 0x99] = .ok (.wpDlc1 0 0x0FF [0x5A]) [0x99] ∧
  decode .hostSend .ignore [0x01, 0x90, 0xDE, 0xAD] = .ok (.wpDlc2 1 0x001 [0xDE, 0xAD]) [] ∧
  decode .hostSend .refuse [0x01, 0x90, 0xDE, 0xAD] = .reject .reservedBitSet ∧
  decode .hostSend .ignore [0x23, 0x49, 0x01] = .reject .shortPayload ∧
  decode .hostSend .ignore [0x09] = .reject .shortHeader ∧
  decode .faultHandler .ignore [0x02] = .ok (.faultHandler 2) [] ∧
  decode .transmit .ignore [0x02, 0xFF, 0x07] = .ok (.transmit [0xFF, 0x07] 2) []

/-! ### OUTBOUND and the sixteen packets -/

/-- R134, R126, R132: an OUTBOUND, and a packet of every form, completes when it may start, its request
meets the contract and `submit` answers `ok`. -/
def Obligations.OutboundCompletes : Prop :=
  ∀ (i : Instr) (s : State) (req : List Byte) (rs : List Reply), IsOutboundOf i s req →
    s.fault = .none → s.oPhase = .idle → MeetsContract s.cfg.rsvd15 req →
    Memory.wf s.txb = true → s.submitReplies = .ok :: rs →
    exec i s = .next { submitted req s with oPhase := .idle, submitReplies := rs }

/-- R127, R183, R134: when `submit` answers `fault`, FAULT becomes 1 and `fault_handler(1)` follows the
`submit` event. -/
def Obligations.OutboundSubmitFault : Prop :=
  ∀ (i : Instr) (s : State) (req : List Byte) (rs : List Reply), IsOutboundOf i s req →
    s.fault = .none → s.oPhase = .idle → MeetsContract s.cfg.rsvd15 req →
    Memory.wf s.txb = true → s.submitReplies = .fault :: rs →
    exec i s = .next { submitted req s with
      oPhase := .idle
      submitReplies := rs
      fault := .submit
      events := (submitted req s).events ++ [.faultHandler 1] }

/-- R185: while `submit` has not answered, the agent stays in O5. No answer listed, or `wait`, is the model's
form of no answer yet (log 2). -/
def Obligations.OutboundHoldsInO5 : Prop :=
  ∀ (i : Instr) (s : State) (req : List Byte), IsOutboundOf i s req →
    s.fault = .none → s.oPhase = .idle → MeetsContract s.cfg.rsvd15 req →
    Memory.wf s.txb = true →
    (s.submitReplies = [] → exec i s = .next { submitted req s with oPhase := .o5 true }) ∧
    (∀ rs, s.submitReplies = .wait :: rs →
      exec i s = .next { submitted req s with oPhase := .o5 true, submitReplies := rs })

/-- R185, R127: the answer that ends a hold in O5, when no INBOUND is to be served (no answer yet: log 2). -/
def Obligations.HeldSubmitIsAnswered : Prop :=
  ∀ (s : State) (rs : List Reply), s.agenda = [] → s.fault = .none → s.iPhase = .idle →
    s.rxTrigger = false → s.oPhase = .o5 true →
    (s.submitReplies = .ok :: rs →
      step s = .next { s with oPhase := .idle, submitReplies := rs }) ∧
    (s.submitReplies = .fault :: rs →
      step s = .next { s with
        oPhase := .idle
        submitReplies := rs
        fault := .submit
        events := s.events ++ [.faultHandler 1] }) ∧
    (s.submitReplies = .wait :: rs → step s = .next { s with submitReplies := rs }) ∧
    (s.submitReplies = [] → step s = .next s)

/-- R128, R129, R123, in the order of R187: the requests that are refused, whatever TXB holds. -/
def Obligations.OutboundRefusesBrokenRequests : Prop :=
  ∀ (i : Instr) (s : State) (req : List Byte), IsOutboundOf i s req →
    s.fault = .none → s.oPhase = .idle → ¬ MeetsContract s.cfg.rsvd15 req →
    exec i s =
      if req.length < 2 then .refused .shortHeader
      else if s.cfg.rsvd15 = .refuse ∧ headerRsvd (headerOf req) = true then
        .refused .reservedBitSet
      else .refused .shortPayload

/-- R131, R184: while FAULT is not 0, or while the agent is inside an operation, a host-send trigger starts
nothing. That the ignored trigger leaves the state as it is, is the model's reading (log 15). -/
def Obligations.OutboundNotStarted : Prop :=
  ∀ (i : Instr) (s : State) (req : List Byte), IsOutboundOf i s req →
    s.fault ≠ .none ∨ s.oPhase ≠ .idle → exec i s = .next s

/-- R125: TXB after an OUTBOUND that was started: the payload at offsets below `n`, every other byte as it
was. -/
def Obligations.OutboundCopiesExactlyN : Prop :=
  ∀ (i : Instr) (s t : State) (req : List Byte), IsOutboundOf i s req →
    s.fault = .none → s.oPhase = .idle → Memory.wf s.txb = true → exec i s = .next t →
    ∀ k, Memory.read t.txb k =
      if k < payloadLen req then req.getD (2 + k) 0 else Memory.read s.txb k

/-- R133, R134: what an OUTBOUND leaves alone: RXB, IN, the inbound latches and phase, `rx_armed`, `diag`,
the parameters, the environment's inputs but for the answers of `submit`; TXB at offsets `n` and above. -/
def Obligations.OutboundFrame : Prop :=
  ∀ (i : Instr) (s t : State) (req : List Byte), IsOutboundOf i s req → exec i s = .next t →
    t.cfg = s.cfg ∧ t.rxb = s.rxb ∧ t.inb = s.inb ∧ t.inLen = s.inLen ∧ t.iId = s.iId ∧
    t.iDlc = s.iDlc ∧ t.iN = s.iN ∧ t.iLen = s.iLen ∧ t.rxArmed = s.rxArmed ∧ t.diag = s.diag ∧
    t.iPhase = s.iPhase ∧ t.rxTrigger = s.rxTrigger ∧ t.port = s.port ∧ t.agenda = s.agenda ∧
    t.transmitReplies = s.transmitReplies ∧ t.spill = s.spill ∧
    (Memory.wf s.txb = true → ∀ k, payloadLen req ≤ k → Memory.read t.txb k = Memory.read s.txb k)

/-- R49: bytes of IN at or above `2 + n` are never read: two requests that agree below give the same run; a
request longer than its header says is accepted. -/
def Obligations.OutboundReadsOnlyItsPacket : Prop :=
  ∀ (s : State) (m : Memory) (l : Nat),
    2 + payloadLen s.request ≤ s.inLen → 2 + payloadLen s.request ≤ l →
    (∀ k, k < 2 + payloadLen s.request → Memory.read m k = Memory.read s.inb k) →
    (∀ t, exec .outbound s = .next t →
      exec .outbound { s with inb := m, inLen := l } = .next { t with inb := m, inLen := l }) ∧
    (∀ e, exec .outbound s = .refused e →
      exec .outbound { s with inb := m, inLen := l } = .refused e) ∧
    (MeetsContract s.cfg.rsvd15 s.request →
      ∃ t, exec .outbound { s with inb := m, inLen := l } = .next t)

/-- R36, R132: stale bytes are unobservable: OUTBOUND emits the same events whatever TXB held. -/
def Obligations.OutboundIgnoresStaleTxb : Prop :=
  ∀ (i : Instr) (s t : State) (req : List Byte) (m : Memory), IsOutboundOf i s req →
    Memory.wf s.txb = true → Memory.wf m = true → exec i s = .next t →
    ∃ m', exec i { s with txb := m } = .next { t with txb := m' }

/-- R123 under `ignore`: header bit 15 changes nothing but the dead latch `o.hdr` (the spec's decision D3, log 19). -/
def Obligations.HeaderBit15IsIgnored : Prop :=
  ∀ (s t : State) (d : DlcCode) (id : Ident) (p : List Byte), s.cfg.rsvd15 = .ignore →
    exec (Instr.packet d 0 id p) s = .next t →
    ∃ h, exec (Instr.packet d 1 id p) s = .next { t with oHdr := h }

/-! ### INBOUND -/

/-- R141, R51: phase I1a writes the identifier into bytes 0 and 1, whatever they held; phase I1b ORs the DLC code
into byte 1; together they are the header, and no other byte changes. -/
def Obligations.InboundComposesTheHeader : Prop :=
  ∀ s : State, Memory.wf s.rxb = true →
    (∀ a, Memory.read (phaseI1a s).rxb a =
      if a = 0 then s.iId.extractLsb' 0 8
      else if a = 1 then (0#5 ++ s.iId.extractLsb' 8 3 : BitVec 8)
      else Memory.read s.rxb a) ∧
    (∀ a, Memory.read (phaseI1b (phaseI1a s)).rxb a =
      if a = 1 then Memory.read (phaseI1a s).rxb 1 ||| (s.iDlc.setWidth 8 <<< 3)
      else Memory.read (phaseI1a s).rxb a) ∧
    Memory.readRange (phaseI1b (phaseI1a s)).rxb 0 2 = hdrBytes (packHeader s.iId s.iDlc) ∧
    (∀ a, 2 ≤ a → Memory.read (phaseI1b (phaseI1a s)).rxb a = Memory.read s.rxb a)

/-- R153, R145, R147: an INBOUND completes when it may start and `transmit` answers `ok`; the events are
`transmit`, `toggle`, `rearm`, in that order. -/
def Obligations.InboundCompletes : Prop :=
  ∀ (s : State) (rs : List Reply), s.fault = .none → s.iPhase = .idle →
    Memory.wf s.rxb = true → s.transmitReplies = .ok :: rs →
    exec .inbound s = .next { transmitted s with
      iPhase := .idle
      transmitReplies := rs
      diag := !s.diag
      rxArmed := true
      events := (transmitted s).events ++ [.toggle, .rearm] }

/-- R146, R153: when `transmit` answers `fault`, FAULT becomes 2, no toggle, no rearm. -/
def Obligations.InboundTransmitFault : Prop :=
  ∀ (s : State) (rs : List Reply), s.fault = .none → s.iPhase = .idle →
    Memory.wf s.rxb = true → s.transmitReplies = .fault :: rs →
    exec .inbound s = .next { transmitted s with
      iPhase := .idle
      transmitReplies := rs
      fault := .transmit
      events := (transmitted s).events ++ [.faultHandler 2] }

/-- R185: while `transmit` has not answered, the agent stays in I3 (no answer yet: log 2). -/
def Obligations.InboundHoldsInI3 : Prop :=
  ∀ s : State, s.fault = .none → s.iPhase = .idle → Memory.wf s.rxb = true →
    (s.transmitReplies = [] →
      exec .inbound s = .next { transmitted s with iPhase := .i3 true }) ∧
    (∀ rs, s.transmitReplies = .wait :: rs →
      exec .inbound s =
        .next { transmitted s with iPhase := .i3 true, transmitReplies := rs })

/-- R185, R146, R147: the answer that ends a hold in I3; nothing else in the block runs meanwhile (no answer yet:
log 2). -/
def Obligations.HeldTransmitIsAnswered : Prop :=
  ∀ (s : State) (rs : List Reply), s.agenda = [] → s.fault = .none → s.iPhase = .i3 true →
    (s.transmitReplies = .ok :: rs →
      step s = .next { s with
        iPhase := .idle
        transmitReplies := rs
        diag := !s.diag
        rxArmed := true
        events := s.events ++ [.toggle, .rearm] }) ∧
    (s.transmitReplies = .fault :: rs →
      step s = .next { s with
        iPhase := .idle
        transmitReplies := rs
        fault := .transmit
        events := s.events ++ [.faultHandler 2] }) ∧
    (s.transmitReplies = .wait :: rs → step s = .next { s with transmitReplies := rs }) ∧
    (s.transmitReplies = [] → step s = .next s)

/-- R150, R163: while FAULT is not 0 a bus-receive trigger starts no INBOUND; nor does it inside one. That the
state stays as it is, is the model's reading (log 15). -/
def Obligations.InboundNotStarted : Prop :=
  ∀ s : State, s.fault ≠ .none ∨ s.iPhase ≠ .idle → exec .inbound s = .next s

/-- R152, R153, R51: what an INBOUND leaves alone: TXB, IN, the outbound latches and phase, `i.id`, `i.dlc`,
the parameters, the environment's inputs but for the answers of `transmit`; RXB at offsets 2 and above. -/
def Obligations.InboundFrame : Prop :=
  ∀ s t : State, exec .inbound s = .next t →
    t.cfg = s.cfg ∧ t.txb = s.txb ∧ t.inb = s.inb ∧ t.inLen = s.inLen ∧ t.oHdr = s.oHdr ∧
    t.oId = s.oId ∧ t.oDlc = s.oDlc ∧ t.oN = s.oN ∧ t.iId = s.iId ∧ t.iDlc = s.iDlc ∧
    t.oPhase = s.oPhase ∧ t.hostSend = s.hostSend ∧ t.port = s.port ∧ t.agenda = s.agenda ∧
    t.submitReplies = s.submitReplies ∧ t.spill = s.spill ∧
    (Memory.wf s.rxb = true → ∀ k, 2 ≤ k → Memory.read t.rxb k = Memory.read s.rxb k)

/-- R151: after `deliver(id, d, p)` the `transmit` event of INBOUND carries exactly `serialize(id, d, p)` and
`2 + ByteCount(d)`, whatever RXB held before and whatever the collaborator left above the payload. -/
def Obligations.InboundSendsTheDeliveredFrame : Prop :=
  ∀ (s t u : State) (id : Ident) (d : DlcCode) (p : List Byte), Memory.wf s.rxb = true →
    s.fault = .none → s.iPhase = .idle →
    exec (.deliver id d p) s = .next t → exec .inbound t = .next u →
    ∃ after, u.events = s.events ++ .transmit (serialize id d p) (packetLength d) :: after

/-! ### Boundary operations -/

/-- R162, R163: `deliver` while armed: the latches, RXB byte by byte, `rx_armed`, the trigger unless FAULT is not 0,
and nothing else; above the payload RXB holds what the collaborator left there or what it held (log 8). -/
def Obligations.DeliverCompletes : Prop :=
  ∀ (s : State) (id : Ident) (d : DlcCode) (p : List Byte), s.rxArmed = true →
    p.length = (byteCount d).toNat → Memory.wf s.rxb = true →
    ∃ m, exec (.deliver id d p) s = .next { s with
        iId := id
        iDlc := d
        rxb := m
        spill := []
        rxArmed := false
        rxTrigger := decide (s.fault = .none) } ∧
      Memory.read m 0 = Memory.read s.rxb 0 ∧ Memory.read m 1 = Memory.read s.rxb 1 ∧
      Memory.readRange m 2 (byteCount d).toNat = p ∧
      (∀ k, k < 64 - (byteCount d).toNat →
        Memory.read m (2 + (byteCount d).toNat + k) =
          s.spill.getD k (Memory.read s.rxb (2 + (byteCount d).toNat + k))) ∧
      (∀ a, 66 ≤ a → Memory.read m a = Memory.read s.rxb a)

/-- R164, R167: `rearm` sets `rx_armed`, `toggle` inverts `diag`; each emits its event; nothing else changes. -/
def Obligations.RearmAndToggleComplete : Prop :=
  ∀ s : State,
    exec .rearm s = .next { s with rxArmed := true, events := s.events ++ [.rearm] } ∧
    exec .toggle s = .next { s with diag := !s.diag, events := s.events ++ [.toggle] }

/-- R160, R166: `submit` and `transmit` executed by themselves emit their event with the arguments by value and
take an answer; the block's state does not change. The answer stands at the model's own port (log 9). -/
def Obligations.CallsComplete : Prop :=
  (∀ (s : State) (id : Ident) (d : DlcCode) (p : List Byte), p.length = (byteCount d).toNat →
    exec (.submit id d p) s = .next { s with
      events := s.events ++ [.submit id d p]
      submitReplies := s.submitReplies.tail
      port := .answer (s.submitReplies.headD .wait) }) ∧
  (∀ (s : State) (b : List Byte) (n : Count), (∃ d, n = packetLength d) → b.length = n.toNat →
    exec (.transmit b n) s = .next { s with
      events := s.events ++ [.transmit b n]
      transmitReplies := s.transmitReplies.tail
      port := .answer (s.transmitReplies.headD .wait) })

/-- R162 with 93 U15: `deliver` is not enabled while `rx_armed = 0`, which the model shows as a stop by name (log
12); operands outside a port's contract (R160, R162, R166) are refused by name (log 13). -/
def Obligations.BoundaryOperationsStop : Prop :=
  (∀ (s : State) (id : Ident) (d : DlcCode) (p : List Byte), p.length = (byteCount d).toNat →
    s.rxArmed = false → exec (.deliver id d p) s = .fault .deliverNotArmed) ∧
  (∀ (s : State) (id : Ident) (d : DlcCode) (p : List Byte), p.length ≠ (byteCount d).toNat →
    exec (.deliver id d p) s = .refused .frameContract ∧
    exec (.submit id d p) s = .refused .frameContract) ∧
  (∀ (s : State) (b : List Byte) (n : Count), (∀ d, n ≠ packetLength d) ∨ b.length ≠ n.toNat →
    exec (.transmit b n) s = .refused .packetContract)

/-- R168: `fault_handler(code)` emits its event and does not return to the operation that raised it (log 23);
the codes 0 and 3 are never sent (log 13). -/
def Obligations.FaultHandlerCompletes : Prop :=
  ∀ s : State,
    exec (.faultHandler 1) s =
      .next { s with events := s.events ++ [.faultHandler 1], oPhase := .idle } ∧
    exec (.faultHandler 2) s =
      .next { s with events := s.events ++ [.faultHandler 2], iPhase := .idle } ∧
    exec (.faultHandler 0) s = .refused .faultCodeReserved ∧
    exec (.faultHandler 3) s = .refused .faultCodeReserved

/-! ### The step: fetch, triggers, reset -/

/-- When a host-send trigger is to be served and the request in IN decodes to a packet, the step is that packet's
meaning at this state, with nothing around it. -/
def Obligations.StepRunsTheDecodedPacket : Prop :=
  ∀ (s : State) (i : Instr) (rest : List Byte), s.agenda = [] → s.fault = .none →
    s.iPhase = .idle → s.rxTrigger = false → s.oPhase = .idle → s.hostSend = true →
    decode .hostSend s.cfg.rsvd15 s.request = .ok i rest → step s = exec i s

/-- A step that fetches a packet is OUTBOUND of the request in IN (R120). -/
def Obligations.FetchedPacketIsOutbound : Prop :=
  ∀ (s : State) (i : Instr) (rest : List Byte), Memory.wf s.txb = true →
    decode .hostSend s.cfg.rsvd15 s.request = .ok i rest → exec i s = exec .outbound s

/-- A request that breaks its contract is refused by the step as OUTBOUND refuses it. -/
def Obligations.StepRefusesBrokenRequests : Prop :=
  ∀ s : State, s.agenda = [] → s.fault = .none → s.iPhase = .idle → s.rxTrigger = false →
    s.oPhase = .idle → s.hostSend = true → ¬ MeetsContract s.cfg.rsvd15 s.request →
    step s = exec .outbound s

/-- R187, R189: a delivered frame is served first, also when an OUTBOUND is part-way through. -/
def Obligations.StepServesInboundFirst : Prop :=
  ∀ s : State, s.agenda = [] → s.fault = .none → s.iPhase = .idle → s.rxTrigger = true →
    step s = exec .inbound s

/-- R162, R28: the bus collaborator's move delivers while armed, also in the middle of an OUTBOUND, and does not
happen otherwise (log 26). -/
def Obligations.StepDelivers : Prop :=
  ∀ (s : State) (id : Ident) (d : DlcCode) (p spill : List Byte) (rest : List Stimulus),
    s.agenda = .frame id d p spill :: rest →
    (s.rxArmed = true → step s = exec (.deliver id d p) { s with agenda := rest, spill := spill }) ∧
    (s.rxArmed = false → step s = .next { s with agenda := rest })

/-- R165: the transport's move places the request in IN, sets IN_LEN and fires the trigger, when the outbound agent
is idle and no request waits; otherwise it does not happen (log 26). -/
def Obligations.StepPresentsRequest : Prop :=
  ∀ (s : State) (bytes : List Byte) (rest : List Stimulus), s.agenda = .request bytes :: rest →
    (s.oPhase = .idle → s.hostSend = false → bytes.length ≤ s.cfg.inCap →
      ∃ m, step s = .next { s with
          agenda := rest, inb := m, inLen := bytes.length, hostSend := true } ∧
        Memory.wf m = true ∧ Memory.readRange m 0 bytes.length = bytes) ∧
    (s.oPhase ≠ .idle ∨ s.hostSend = true → step s = .next { s with agenda := rest })

/-- What a reset leaves. From R34, R210: both agents idle, FAULT = 0, no request, no pending delivery, no event, the
parameters not touched. The model's choices: the unspecified pieces take the values that come with the reset (log 7),
`rx_armed` stays as it was, where the spec says only that the block's reset does not set it (log 6), and IN_LEN is 0,
where the spec says only that no request is present (log 4). -/
def Obligations.StepResets : Prop :=
  ∀ (s : State) (u : Unspecified) (rest : List Stimulus), s.agenda = .reset u :: rest →
    ∃ t, step s = .next t ∧ t.oPhase = .idle ∧ t.iPhase = .idle ∧ t.fault = .none ∧
      t.hostSend = false ∧ t.inLen = 0 ∧ t.rxTrigger = false ∧ t.events = s.events ∧
      t.rxArmed = s.rxArmed ∧ t.cfg = s.cfg ∧ t.agenda = rest ∧
      (∀ k, k < 66 → Memory.read t.txb k = u.txb.getD k 0) ∧
      (∀ k, k < 66 → Memory.read t.rxb k = u.rxb.getD k 0) ∧
      t.oHdr = u.oHdr ∧ t.oId = u.oId ∧ t.oDlc = u.oDlc ∧ t.oN = u.oN ∧ t.iId = u.iId ∧
      t.iDlc = u.iDlc ∧ t.iN = u.iN ∧ t.iLen = u.iLen ∧ t.diag = u.diag

/-- R34, R210: the reset state has both agents idle, FAULT = 0, no request and no delivery pending, and the default
parameters. That no request is present reads IN_LEN = 0 is the model's choice (log 4). -/
def Obligations.ResetStateIsIdle : Prop :=
  State.reset.BothIdle ∧ State.reset.NoFault ∧ State.reset.NoPendingDelivery ∧
  State.reset.hostSend = false ∧ State.reset.inLen = 0 ∧
  State.reset.cfg = { rsvd15 := .ignore, inCap := 66 }

/-! ### Faults and parameters over all steps -/

/-- R184: while FAULT is not 0, no step but a reset emits an event, starts or resumes an operation, or changes the
outbound side or FAULT. -/
def Obligations.FaultedBlockStandsStill : Prop :=
  ∀ s t : State, s.fault ≠ .none → (∀ u rest, s.agenda ≠ .reset u :: rest) → step s = .next t →
    t.fault = s.fault ∧ t.events = s.events ∧ t.oPhase = s.oPhase ∧ t.iPhase = s.iPhase ∧
    t.txb = s.txb ∧ t.oHdr = s.oHdr ∧ t.oId = s.oId ∧ t.oDlc = s.oDlc ∧ t.oN = s.oN ∧
    t.diag = s.diag ∧ t.submitReplies = s.submitReplies ∧ t.transmitReplies = s.transmitReplies

/-- R26, R183, R184: a step writes FAULT only from 0, or clears it by a reset; it emits `fault_handler` at most once,
as its last event, and exactly when it writes FAULT, with FAULT's code; earlier events stay. -/
def Obligations.FaultLatchAndHandlerAgree : Prop :=
  ∀ s t : State, step s = .next t →
    ∃ new, t.events = s.events ++ new ∧
      ((t.fault = s.fault ∧ (∀ c, Event.faultHandler c ∉ new)) ∨
       (s.fault = .none ∧ t.fault ≠ .none ∧ ∃ before,
          new = before ++ [.faultHandler t.fault.code] ∧ (∀ c, Event.faultHandler c ∉ before)) ∨
       ((∃ u rest, s.agenda = .reset u :: rest) ∧ t.fault = .none ∧ new = []))

/-- R31: no operation and no step changes the parameters. -/
def Obligations.ParametersNeverChange : Prop :=
  (∀ (i : Instr) (s t : State), exec i s = .next t → t.cfg = s.cfg) ∧
  (∀ s t : State, step s = .next t → t.cfg = s.cfg)

/-! ### Whole-machine results -/

/-- Every step keeps the invariant: canonical buffers inside their spaces, latches that agree with the phase, at most
one inbound frame in flight, and nothing but canonical events (R82). -/
def Obligations.StepKeepsConsistent : Prop :=
  ∀ s t : State, s.Consistent → step s = .next t → t.Consistent

/-- The reset state meets the invariant. -/
def Obligations.ResetIsConsistent : Prop := State.reset.Consistent

/-- From a consistent state no step ends in a fault of the model: no access leaves its buffer (R54, R182) and the bus
collaborator never delivers while unarmed (R28). -/
def Obligations.ConsistentStepsNeverFault : Prop :=
  ∀ (s : State) (f : Fault), s.Consistent → step s ≠ .fault f

/-- R148: while a frame is in the block, the bus collaborator's move changes neither RXB nor the inbound latches. -/
def Obligations.FrameInFlightIsStable : Prop :=
  ∀ (s : State) (id : Ident) (d : DlcCode) (p spill : List Byte) (rest : List Stimulus),
    s.Consistent → s.iPhase ≠ .idle ∨ s.rxTrigger = true →
    s.agenda = .frame id d p spill :: rest → step s = .next { s with agenda := rest }

/-- R189: an OUTBOUND cut at any phase boundary, or between two byte copies, and taken up again is the whole
OUTBOUND. -/
def Obligations.OutboundPhasesMakeTheWhole : Prop :=
  ∀ (req : List Byte) (s : State), (∀ c, s.oPhase ≠ .o5 c) →
    andThen (outboundPhase req s) (resumeOutbound req) = resumeOutbound req s

/-- The phases of an INBOUND taken one at a time are the whole INBOUND, when `transmit` does not hold. -/
def Obligations.InboundPhasesMakeTheWhole : Prop :=
  ∀ s : State,
    (∀ c, s.iPhase ≠ .i3 c) ∨ (∃ r rs, s.transmitReplies = r :: rs ∧ r ≠ .wait) →
    andThen (inboundPhase s) resumeInbound = resumeInbound s

/-- R190, R27: a phase of OUTBOUND before its call and a whole INBOUND give the same state in either order. As a fact
about the two functions it asks nothing of FAULT; which of the two a step takes after a fault is the scheduler's
matter (R184: then neither). -/
def Obligations.InboundCommutesWithOutboundPhase : Prop :=
  ∀ (req : List Byte) (s s1 s2 : State), (∀ c, s.oPhase ≠ .o5 c) →
    outboundPhase req s = .next s1 → exec .inbound s = .next s2 →
    ∃ t, exec .inbound s1 = .next t ∧ outboundPhase req s2 = .next t

/-- R190: an OUTBOUND preempted after any number of phases before its call, by an INBOUND that completes, ends exactly
as INBOUND and then OUTBOUND, each as one atomic step. -/
def Obligations.PreemptionEqualsAtomicOrder : Prop :=
  ∀ (k : Nat) (s u v : State), s.fault = .none → s.oPhase = .idle → s.iPhase = .idle →
    exec .inbound s = .next u → u.fault = .none → u.iPhase = .idle →
    outboundPhases k s.request (startOutbound s) = .next v →
    v.oPhase ≠ .idle → (∀ c, v.oPhase ≠ .o5 c) →
    andThen (exec .inbound v) (resumeOutbound s.request) = exec .outbound u

/-- R156: the two pure functions are inverse, up to header bit 15 and surplus bytes. -/
def Obligations.SerializeAndDeserializeAreInverse : Prop :=
  (∀ (id : Ident) (d : DlcCode) (p : List Byte), p.length = (byteCount d).toNat →
    deserialize (serialize id d p) = (id, d, p)) ∧
  (∀ bytes : List Byte, 2 + payloadLen bytes ≤ bytes.length →
    serialize (deserialize bytes).1 (deserialize bytes).2.1 (deserialize bytes).2.2 =
      [bytes.getD 0 0, bytes.getD 1 0 &&& 0x7F] ++ (bytes.drop 2).take (payloadLen bytes))

/-- R156 over the machine: a frame is delivered and sent by INBOUND; the bytes sent, presented as a request, are
submitted by OUTBOUND as the same frame. -/
def Obligations.LoopbackReturnsTheFrame : Prop :=
  ∀ (s : State) (id : Ident) (d : DlcCode) (p : List Byte) (rs rs' : List Reply), s.Consistent →
    s.fault = .none → s.iPhase = .idle → s.oPhase = .idle → s.rxArmed = true → 66 ≤ s.cfg.inCap →
    p.length = (byteCount d).toNat →
    s.transmitReplies = .ok :: rs → s.submitReplies = .ok :: rs' →
    ∃ t u v w b, exec (.deliver id d p) s = .next t ∧ exec .inbound t = .next u ∧
      u.events = s.events ++ [.transmit b (packetLength d), .toggle, .rearm] ∧
      presentRequest b u = .next v ∧ exec .outbound v = .next w ∧
      w.events = u.events ++ [.submit id d p]
end

