-- ==== Sys2Proof/Laws/Codec.lean ====
section
/-! SUPPORT. What the pure functions of the codecs do, as numbers and field by field. -/

namespace Sys2Proof

theorem byteCount_le (d : DlcCode) : (byteCount d).toNat ≤ 64 := by
  revert d; decide

theorem packetLength_toNat (d : DlcCode) :
    (packetLength d).toNat = 2 + (byteCount d).toNat := by
  revert d; decide

theorem isPacketLength_packetLength (d : DlcCode) : isPacketLength (packetLength d) = true := by
  revert d; decide

theorem headerId_toNat (h : Header) : (headerId h).toNat = h.toNat % 2048 := by
  have := Nat.and_two_pow_sub_one_eq_mod h.toNat 11
  norm_num at this
  simp only [headerId, BitVec.toNat_setWidth, BitVec.toNat_and, BitVec.toNat_ofNat]
  norm_num [this]

theorem headerDlc_toNat (h : Header) : (headerDlc h).toNat = h.toNat / 2048 % 16 := by
  have := Nat.and_two_pow_sub_one_eq_mod (h.toNat / 2048) 4
  norm_num at this
  simp only [headerDlc, BitVec.toNat_setWidth, BitVec.toNat_and, BitVec.toNat_ofNat,
    BitVec.toNat_ushiftRight, Nat.shiftRight_eq_div_pow]
  norm_num [this]

theorem headerRsvd_eq (h : Header) : headerRsvd h = decide (32768 ≤ h.toNat) := by
  have := h.isLt
  simp only [headerRsvd, BitVec.getLsbD, Nat.testBit, Nat.shiftRight_eq_div_pow]
  rw [Bool.eq_iff_iff]
  simp
  omega

theorem packetHeader_toNat (r : BitVec 1) (d : DlcCode) (id : Ident) :
    (packetHeader r d id).toNat = r.toNat * 32768 + d.toNat * 2048 + id.toNat := by
  have hid := id.isLt
  have hd := d.isLt
  simp only [packetHeader, BitVec.toNat_append]
  rw [← Nat.shiftLeft_add_eq_or_of_lt hid, ← Nat.shiftLeft_add_eq_or_of_lt hd]
  simp only [Nat.shiftLeft_eq]
  ring

theorem packHeader_toNat (id : Ident) (d : DlcCode) :
    (packHeader id d).toNat = d.toNat * 2048 + id.toNat := by
  have hid := id.isLt
  have hd := d.isLt
  simp only [packHeader, BitVec.toNat_or, BitVec.toNat_setWidth, BitVec.toNat_shiftLeft]
  rw [Nat.mod_eq_of_lt (by omega : id.toNat < 2 ^ 16),
    Nat.mod_eq_of_lt (by omega : d.toNat < 2 ^ 16),
    Nat.mod_eq_of_lt (by rw [Nat.shiftLeft_eq]; omega), Nat.or_comm,
    ← Nat.shiftLeft_add_eq_or_of_lt hid, Nat.shiftLeft_eq]

/-- `packHeader` writes the pattern `0 dddd iiiiiiiiiii`. -/
theorem packHeader_eq_packetHeader (id : Ident) (d : DlcCode) :
    packHeader id d = packetHeader 0 d id := by
  apply BitVec.eq_of_toNat_eq
  rw [packHeader_toNat, packetHeader_toNat]
  simp

@[simp] theorem headerId_packetHeader (r : BitVec 1) (d : DlcCode) (id : Ident) :
    headerId (packetHeader r d id) = id := by
  have hid := id.isLt
  have hd := d.isLt
  apply BitVec.eq_of_toNat_eq
  rw [headerId_toNat, packetHeader_toNat]
  omega

@[simp] theorem headerDlc_packetHeader (r : BitVec 1) (d : DlcCode) (id : Ident) :
    headerDlc (packetHeader r d id) = d := by
  have hid := id.isLt
  have hd := d.isLt
  apply BitVec.eq_of_toNat_eq
  rw [headerDlc_toNat, packetHeader_toNat]
  omega

theorem headerRsvd_packetHeader (r : BitVec 1) (d : DlcCode) (id : Ident) :
    headerRsvd (packetHeader r d id) = decide (r = 1) := by
  have hid := id.isLt
  have hd := d.isLt
  have hr := r.isLt
  rw [headerRsvd_eq, packetHeader_toNat]
  have h1 : (1 : BitVec 1).toNat = 1 := rfl
  rw [decide_eq_decide, ← BitVec.toNat_inj, h1]
  omega

theorem rsvdField_packetHeader (r : BitVec 1) (d : DlcCode) (id : Ident) :
    (packetHeader r d id >>> 15).setWidth 1 = r := by
  have hid := id.isLt
  have hd := d.isLt
  have hr := r.isLt
  apply BitVec.eq_of_toNat_eq
  rw [BitVec.toNat_setWidth, BitVec.toNat_ushiftRight, packetHeader_toNat,
    Nat.shiftRight_eq_div_pow]
  omega

/-- Every header is the packet header of its own three fields. -/
theorem packetHeader_fields (h : Header) :
    packetHeader ((h >>> 15).setWidth 1) (headerDlc h) (headerId h) = h := by
  have := h.isLt
  apply BitVec.eq_of_toNat_eq
  rw [packetHeader_toNat, headerDlc_toNat, headerId_toNat, BitVec.toNat_setWidth,
    BitVec.toNat_ushiftRight, Nat.shiftRight_eq_div_pow]
  omega

theorem hdrOfBytes_toNat (b0 b1 : Byte) : (hdrOfBytes b0 b1).toNat = b1.toNat * 256 + b0.toNat := by
  rw [hdrOfBytes, BitVec.toNat_append, ← Nat.shiftLeft_add_eq_or_of_lt b0.isLt, Nat.shiftLeft_eq]

@[simp] theorem hdrOfBytes_split (h : Header) :
    hdrOfBytes (h.setWidth 8) ((h >>> 8).setWidth 8) = h := by
  have := h.isLt
  apply BitVec.eq_of_toNat_eq
  rw [hdrOfBytes_toNat, BitVec.toNat_setWidth, BitVec.toNat_setWidth, BitVec.toNat_ushiftRight,
    Nat.shiftRight_eq_div_pow]
  omega

theorem hdrBytes_hdrOfBytes (b0 b1 : Byte) : hdrBytes (hdrOfBytes b0 b1) = [b0, b1] := by
  have h0 := b0.isLt
  have h1 := b1.isLt
  simp only [hdrBytes, List.cons.injEq, and_true]
  constructor <;> apply BitVec.eq_of_toNat_eq
  · rw [BitVec.toNat_setWidth, hdrOfBytes_toNat]
    omega
  · rw [BitVec.toNat_setWidth, BitVec.toNat_ushiftRight, hdrOfBytes_toNat,
      Nat.shiftRight_eq_div_pow]
    omega

@[simp] theorem length_hdrBytes (h : Header) : (hdrBytes h).length = 2 := rfl

@[simp] theorem headerOf_hdrBytes_append (h : Header) (p : List Byte) :
    headerOf (hdrBytes h ++ p) = h := by
  simp [headerOf, hdrBytes]

@[simp] theorem drop_hdrBytes_append (h : Header) (p : List Byte) : (hdrBytes h ++ p).drop 2 = p :=
  rfl

@[simp] theorem length_packetBytes (r : BitVec 1) (d : DlcCode) (id : Ident) (p : List Byte) :
    (packetBytes r d id p).length = 2 + p.length := by
  simp [packetBytes]

@[simp] theorem headerOf_packetBytes (r : BitVec 1) (d : DlcCode) (id : Ident) (p : List Byte) :
    headerOf (packetBytes r d id p) = packetHeader r d id :=
  headerOf_hdrBytes_append _ _

@[simp] theorem drop_packetBytes (r : BitVec 1) (d : DlcCode) (id : Ident) (p : List Byte) :
    (packetBytes r d id p).drop 2 = p := rfl

/-- A packet with bit 15 clear is what INBOUND sends. -/
theorem packetBytes_zero_eq_serialize (d : DlcCode) (id : Ident) (p : List Byte) :
    packetBytes 0 d id p = serialize id d p := by
  rw [packetBytes, serialize, packHeader_eq_packetHeader]

/-- The two bytes of a packed header, as INBOUND phases I1a and I1b write them (R142). -/
theorem hdrBytes_packHeader (id : Ident) (d : DlcCode) :
    hdrBytes (packHeader id d) = [idLowByte id, idHighByte id ||| dlcInByte1 d] := by
  have hid := id.isLt
  have hd := d.isLt
  simp only [hdrBytes, List.cons.injEq, and_true]
  constructor <;> apply BitVec.eq_of_toNat_eq
  · rw [BitVec.toNat_setWidth, packHeader_toNat, idLowByte, BitVec.toNat_setWidth]
    omega
  · have hlo : id.toNat / 256 < 2 ^ 3 := by omega
    simp only [BitVec.toNat_setWidth, BitVec.toNat_ushiftRight, packHeader_toNat, idHighByte,
      dlcInByte1, BitVec.toNat_or, BitVec.toNat_shiftLeft, Nat.shiftRight_eq_div_pow]
    rw [Nat.or_comm, Nat.mod_eq_of_lt (by omega : d.toNat < 2 ^ 8),
      Nat.mod_eq_of_lt (by rw [Nat.shiftLeft_eq]; omega : d.toNat <<< 3 < 2 ^ 8),
      Nat.mod_eq_of_lt (by omega : id.toNat / 2 ^ 8 < 2 ^ 8),
      ← Nat.shiftLeft_add_eq_or_of_lt (by omega : id.toNat / 2 ^ 8 < 2 ^ 3), Nat.shiftLeft_eq]
    omega

/-- The packet constructor of form `d` carries its operands. -/
theorem encode_packet (d : DlcCode) (r : BitVec 1) (id : Ident) (p : List Byte) :
    encode (Instr.packet d r id p) = packetBytes r d id p := by
  have h : ∀ k : Fin 16, encode (Instr.packet (BitVec.ofFin k) r id p) =
      packetBytes r (BitVec.ofFin k) id p := by
    intro k
    fin_cases k <;> rfl
  exact h d.toFin

theorem wellFormed_packet (d : DlcCode) (r : BitVec 1) (id : Ident) (p : List Byte) :
    (Instr.packet d r id p).wellFormed = payloadFits d p := by
  have h : ∀ k : Fin 16, (Instr.packet (BitVec.ofFin k) r id p).wellFormed =
      payloadFits (BitVec.ofFin k) p := by
    intro k
    fin_cases k <;> rfl
  exact h d.toFin

theorem portOf_packet (d : DlcCode) (r : BitVec 1) (id : Ident) (p : List Byte) :
    portOf (Instr.packet d r id p) = .hostSend := by
  have h : ∀ k : Fin 16, portOf (Instr.packet (BitVec.ofFin k) r id p) = .hostSend := by
    intro k
    fin_cases k <;> rfl
  exact h d.toFin

theorem payloadFits_iff (d : DlcCode) (p : List Byte) :
    payloadFits d p = true ↔ p.length = (byteCount d).toNat := by
  simp [payloadFits]

end Sys2Proof
end

