-- ==== Sys2Proof/Laws/Memory.lean ====
section
/-! SUPPORT. The laws of a byte buffer: what a write leaves to be read, and that every operation keeps
the canonical form. -/

namespace Sys2Proof.Machine

open Sys2Proof

theorem Memory.wfFrom_cons (lo k : Nat) (v : Byte) (m : Memory) :
    Memory.wfFrom lo ((k, v) :: m) = true ↔
      lo ≤ k ∧ v ≠ Memory.unlisted ∧ Memory.wfFrom (k + 1) m = true := by
  simp [Memory.wfFrom, and_assoc]

theorem Memory.wfFrom_mono {lo lo' : Nat} {m : Memory} (hle : lo' ≤ lo)
    (h : Memory.wfFrom lo m = true) : Memory.wfFrom lo' m = true := by
  cases m with
  | nil => rfl
  | cons c m =>
    obtain ⟨k, v⟩ := c
    rw [Memory.wfFrom_cons] at h ⊢
    exact ⟨by omega, h.2⟩

/-- Below the first offset a canonical buffer lists nothing. -/
theorem Memory.read_below_start {lo : Nat} {m : Memory} (h : Memory.wfFrom lo m = true) {a : Nat}
    (ha : a < lo) : Memory.read m a = Memory.unlisted := by
  induction m generalizing lo with
  | nil => rfl
  | cons c m ih =>
    obtain ⟨k, v⟩ := c
    rw [Memory.wfFrom_cons] at h
    have hne : a ≠ k := by omega
    simp only [Memory.read, hne, if_false]
    exact ih h.2.2 (by omega)

theorem Memory.write_wfFrom {lo : Nat} {m : Memory} (h : Memory.wfFrom lo m = true) {a : Nat}
    (ha : lo ≤ a) (b : Byte) : Memory.wfFrom lo (Memory.write m a b) = true := by
  induction m generalizing lo with
  | nil =>
    simp only [Memory.write]
    split
    · rfl
    · rename_i hb
      rw [Memory.wfFrom_cons]
      exact ⟨ha, hb, rfl⟩
  | cons c m ih =>
    obtain ⟨k, v⟩ := c
    have h' := (Memory.wfFrom_cons lo k v m).mp h
    simp only [Memory.write]
    split
    · rename_i hlt
      split
      · exact h
      · rename_i hb
        rw [Memory.wfFrom_cons, Memory.wfFrom_cons]
        exact ⟨ha, hb, by omega, h'.2⟩
    · split
      · rename_i hlt heq
        subst heq
        split
        · exact Memory.wfFrom_mono (by omega) h'.2.2
        · rename_i hb
          rw [Memory.wfFrom_cons]
          exact ⟨ha, hb, h'.2.2⟩
      · rename_i hlt hne
        rw [Memory.wfFrom_cons]
        exact ⟨h'.1, h'.2.1, ih h'.2.2 (by omega)⟩

/-- Every write keeps the canonical form. -/
theorem Memory.wf_write {m : Memory} (h : Memory.wf m = true) (a : Nat) (b : Byte) :
    Memory.wf (Memory.write m a b) = true :=
  Memory.write_wfFrom h (Nat.zero_le a) b

theorem Memory.read_write_from {lo : Nat} {m : Memory} (h : Memory.wfFrom lo m = true) (a : Nat)
    (b : Byte) (x : Nat) :
    Memory.read (Memory.write m a b) x = if x = a then b else Memory.read m x := by
  induction m generalizing lo with
  | nil =>
    simp only [Memory.write]
    split
    · rename_i hb
      simp only [Memory.read, ← hb, ite_self]
    · simp only [Memory.read]
  | cons c m ih =>
    obtain ⟨k, v⟩ := c
    have h' := (Memory.wfFrom_cons lo k v m).mp h
    simp only [Memory.write]
    split
    · rename_i hlt
      split
      · rename_i hb
        by_cases hx : x = a
        · subst hx
          rw [Memory.read_below_start (lo := k) (by
            rw [Memory.wfFrom_cons]; exact ⟨Nat.le_refl k, h'.2⟩) hlt]
          simp [hb]
        · simp [hx]
      · simp only [Memory.read]
    · split
      · rename_i hlt heq
        subst heq
        split
        · rename_i hb
          by_cases hx : x = a
          · subst hx
            rw [Memory.read_below_start h'.2.2 (Nat.lt_succ_self _)]
            simp [hb]
          · simp [hx, Memory.read]
        · by_cases hx : x = a <;> simp [hx, Memory.read]
      · rename_i hlt hne
        simp only [Memory.read, ih h'.2.2]
        by_cases hx : x = k
        · have : x ≠ a := by omega
          simp [hx, Ne.symm hne]
        · simp [hx]

/-- The most recent write to a byte is what is read, and every other byte is left alone (R55). -/
theorem Memory.read_write {m : Memory} (h : Memory.wf m = true) (a : Nat) (b : Byte) (x : Nat) :
    Memory.read (Memory.write m a b) x = if x = a then b else Memory.read m x :=
  Memory.read_write_from h a b x

theorem Memory.wf_writeRange {m : Memory} (h : Memory.wf m = true) (a : Nat) (bs : List Byte) :
    Memory.wf (Memory.writeRange m a bs) = true := by
  induction bs generalizing m a with
  | nil => exact h
  | cons b bs ih => exact ih (Memory.wf_write h a b) (a + 1)

theorem Memory.wf_ofBytes (bs : List Byte) : Memory.wf (Memory.ofBytes bs) = true :=
  Memory.wf_writeRange (m := []) rfl 0 bs

/-- What a range write leaves to be read at any offset. -/
theorem Memory.read_writeRange {m : Memory} (h : Memory.wf m = true) (a : Nat) (bs : List Byte)
    (x : Nat) :
    Memory.read (Memory.writeRange m a bs) x =
      if a ≤ x ∧ x < a + bs.length then bs.getD (x - a) 0 else Memory.read m x := by
  induction bs generalizing m a with
  | nil =>
    have : ¬ (a ≤ x ∧ x < a + 0) := by omega
    simp only [Memory.writeRange, List.length_nil, this, if_false]
  | cons b bs ih =>
    simp only [Memory.writeRange]
    rw [ih (Memory.wf_write h a b), Memory.read_write h]
    by_cases hx : x = a
    · subst hx
      have h1 : ¬ (x + 1 ≤ x ∧ x < x + 1 + bs.length) := by omega
      have h2 : x ≤ x ∧ x < x + (b :: bs).length := by simp
      rw [if_neg h1, if_pos h2]
      simp
    · by_cases hin : a + 1 ≤ x ∧ x < a + 1 + bs.length
      · have h2 : a ≤ x ∧ x < a + (b :: bs).length := by simp; omega
        rw [if_pos hin, if_pos h2]
        have : x - a = (x - (a + 1)) + 1 := by omega
        rw [this, List.getD_cons_succ]
      · have h2 : ¬ (a ≤ x ∧ x < a + (b :: bs).length) := by simp; omega
        rw [if_neg hin, if_neg h2, if_neg hx]

@[simp] theorem Memory.length_readRange (m : Memory) (a n : Nat) :
    (Memory.readRange m a n).length = n := by
  induction n generalizing a with
  | zero => rfl
  | succ n ih => simp [Memory.readRange, ih]

theorem Memory.getElem_readRange (m : Memory) (a n k : Nat) (h : k < n) :
    (Memory.readRange m a n)[k]'(by simpa using h) = Memory.read m (a + k) := by
  induction n generalizing a k with
  | zero => omega
  | succ n ih =>
    cases k with
    | zero => rfl
    | succ k =>
      simp only [Memory.readRange, List.getElem_cons_succ]
      rw [ih (a + 1) k (by omega)]
      congr 1
      omega

/-- A range read depends on the bytes of the range alone. -/
theorem Memory.readRange_congr {m m' : Memory} {a n : Nat}
    (h : ∀ x, a ≤ x → x < a + n → Memory.read m x = Memory.read m' x) :
    Memory.readRange m a n = Memory.readRange m' a n := by
  induction n generalizing a with
  | zero => rfl
  | succ n ih =>
    simp only [Memory.readRange]
    rw [h a (Nat.le_refl a) (by omega), ih (fun x h1 h2 => h x (by omega) (by omega))]

theorem Memory.readRange_append (m : Memory) (a n k : Nat) :
    Memory.readRange m a (n + k) = Memory.readRange m a n ++ Memory.readRange m (a + n) k := by
  induction n generalizing a with
  | zero => simp [Memory.readRange]
  | succ n ih =>
    rw [show n + 1 + k = (n + k) + 1 by omega]
    simp only [Memory.readRange, List.cons_append, ih]
    rw [show a + 1 + n = a + (n + 1) by omega]

/-- Reading back a range that was written gives the bytes written. -/
theorem Memory.readRange_writeRange {m : Memory} (h : Memory.wf m = true) (a : Nat)
    (bs : List Byte) : Memory.readRange (Memory.writeRange m a bs) a bs.length = bs := by
  refine List.ext_getElem (by simp) ?_
  intro k h1 h2
  rw [Memory.getElem_readRange _ _ _ _ h2, Memory.read_writeRange h]
  rw [if_pos ⟨by omega, by omega⟩, List.getD_eq_getElem _ _ (by omega)]
  congr 1
  omega

/-- A range write leaves every range that it does not meet as it was. -/
theorem Memory.readRange_writeRange_disjoint {m : Memory} (h : Memory.wf m = true) (a : Nat)
    (bs : List Byte) (c n : Nat) (hd : c + n ≤ a ∨ a + bs.length ≤ c) :
    Memory.readRange (Memory.writeRange m a bs) c n = Memory.readRange m c n := by
  refine Memory.readRange_congr fun x h1 h2 => ?_
  rw [Memory.read_writeRange h, if_neg (by omega)]

theorem Memory.readRange_ofBytes (bs : List Byte) :
    Memory.readRange (Memory.ofBytes bs) 0 bs.length = bs :=
  Memory.readRange_writeRange (m := []) rfl 0 bs

theorem Memory.below_cons (cap k : Nat) (v : Byte) (m : Memory) :
    Memory.below cap ((k, v) :: m) = true ↔ k < cap ∧ Memory.below cap m = true := by
  simp only [Memory.below, List.all_cons, Bool.and_eq_true, decide_eq_true_eq]

theorem Memory.below_write {cap : Nat} {m : Memory} (h : Memory.below cap m = true) {a : Nat}
    (ha : a < cap) (b : Byte) : Memory.below cap (Memory.write m a b) = true := by
  induction m with
  | nil =>
    simp only [Memory.write]
    split
    · rfl
    · exact (Memory.below_cons _ _ _ _).mpr ⟨ha, rfl⟩
  | cons c m ih =>
    obtain ⟨k, v⟩ := c
    have h' := (Memory.below_cons _ _ _ _).mp h
    simp only [Memory.write]
    split
    · split
      · exact h
      · exact (Memory.below_cons _ _ _ _).mpr ⟨ha, h⟩
    · split
      · split
        · exact h'.2
        · exact (Memory.below_cons _ _ _ _).mpr ⟨ha, h'.2⟩
      · exact (Memory.below_cons _ _ _ _).mpr ⟨h'.1, ih h'.2⟩

/-- A range write inside the space keeps every listed offset inside it. -/
theorem Memory.below_writeRange {cap : Nat} {m : Memory} (h : Memory.below cap m = true) {a : Nat}
    {bs : List Byte} (ha : a + bs.length ≤ cap) :
    Memory.below cap (Memory.writeRange m a bs) = true := by
  induction bs generalizing m a with
  | nil => exact h
  | cons b bs ih =>
    simp only [List.length_cons] at ha
    exact ih (Memory.below_write h (by omega) b) (by omega)

theorem Memory.below_ofBytes (bs : List Byte) : Memory.below bs.length (Memory.ofBytes bs) = true :=
  Memory.below_writeRange (m := []) rfl (by omega)

theorem Memory.below_mono {c c' : Nat} {m : Memory} (hle : c ≤ c')
    (h : Memory.below c m = true) : Memory.below c' m = true := by
  simp only [Memory.below, List.all_eq_true, decide_eq_true_eq] at h ⊢
  exact fun x hx => Nat.lt_of_lt_of_le (h x hx) hle

/-- Canonical buffers that read the same at every offset are the same data. -/
theorem Memory.ext_from {lo : Nat} {m m' : Memory} (h : Memory.wfFrom lo m = true)
    (h' : Memory.wfFrom lo m' = true) (hr : ∀ a, Memory.read m a = Memory.read m' a) : m = m' := by
  induction m generalizing lo m' with
  | nil =>
    cases m' with
    | nil => rfl
    | cons c m' =>
      obtain ⟨k, v⟩ := c
      have := hr k
      simp only [Memory.read, if_true] at this
      exact absurd this.symm ((Memory.wfFrom_cons lo k v m').mp h').2.1
  | cons c m ih =>
    obtain ⟨k, v⟩ := c
    have hk := (Memory.wfFrom_cons lo k v m).mp h
    cases m' with
    | nil =>
      have := hr k
      simp only [Memory.read, if_true] at this
      exact absurd this hk.2.1
    | cons c' m' =>
      obtain ⟨k', v'⟩ := c'
      have hk' := (Memory.wfFrom_cons lo k' v' m').mp h'
      have hkk : k = k' := by
        rcases Nat.lt_trichotomy k k' with hlt | heq | hgt
        · have := hr k
          rw [Memory.read_below_start (lo := k') (m := (k', v') :: m')
            ((Memory.wfFrom_cons _ _ _ _).mpr ⟨Nat.le_refl _, hk'.2⟩) hlt] at this
          simp only [Memory.read, if_true] at this
          exact absurd this hk.2.1
        · exact heq
        · have := hr k'
          rw [Memory.read_below_start (lo := k) (m := (k, v) :: m)
            ((Memory.wfFrom_cons _ _ _ _).mpr ⟨Nat.le_refl _, hk.2⟩) hgt] at this
          simp only [Memory.read, if_true] at this
          exact absurd this.symm hk'.2.1
      subst hkk
      have hv := hr k
      simp only [Memory.read, if_true] at hv
      subst hv
      have : m = m' := by
        refine ih hk.2.2 hk'.2.2 fun a => ?_
        by_cases ha : a = k
        · subst ha
          rw [Memory.read_below_start hk.2.2 (Nat.lt_succ_self _),
            Memory.read_below_start hk'.2.2 (Nat.lt_succ_self _)]
        · have := hr a
          simpa [Memory.read, ha] using this
      rw [this]

theorem Memory.ext {m m' : Memory} (h : Memory.wf m = true) (h' : Memory.wf m' = true)
    (hr : ∀ a, Memory.read m a = Memory.read m' a) : m = m' :=
  Memory.ext_from h h' hr

/-- The request that a presented buffer holds. -/
theorem State.request_of_ofBytes (s : State) (bytes : List Byte)
    (h : s.inb = Memory.ofBytes bytes) (hl : s.inLen = bytes.length) : s.request = bytes := by
  rw [State.request, h, hl, Memory.readRange_ofBytes]

@[simp] theorem State.length_request (s : State) : s.request.length = s.inLen := by
  simp [State.request]

end Sys2Proof.Machine
end

