-- ==== Sys2Proof/Laws/State.lean ====
section
/-! SUPPORT. The fields of a state after each named update, one lemma per field. -/

namespace Sys2Proof.Machine

open Sys2Proof

@[simp] theorem andThen_next (s : State) (f : State → Answer) : andThen (.next s) f = f s := rfl

@[simp] theorem andThen_fault (e : Fault) (f : State → Answer) : andThen (.fault e) f = .fault e := rfl

@[simp] theorem andThen_refused (e : Refusal) (f : State → Answer) :
    andThen (.refused e) f = .refused e := rfl

theorem andThen_eq_next {r : Answer} {f : State → Answer} {t : State} :
    andThen r f = .next t ↔ ∃ s, r = .next s ∧ f s = .next t := by
  cases r <;> simp [andThen]

theorem andThen_assoc (r : Answer) (f g : State → Answer) :
    andThen (andThen r f) g = andThen r fun s => andThen (f s) g := by
  cases r <;> rfl

/-! ### `State.emit` -/

@[simp] theorem State.emit_cfg (e : Event) (s : State) : (s.emit e).cfg = s.cfg := rfl
@[simp] theorem State.emit_txb (e : Event) (s : State) : (s.emit e).txb = s.txb := rfl
@[simp] theorem State.emit_rxb (e : Event) (s : State) : (s.emit e).rxb = s.rxb := rfl
@[simp] theorem State.emit_inb (e : Event) (s : State) : (s.emit e).inb = s.inb := rfl
@[simp] theorem State.emit_inLen (e : Event) (s : State) : (s.emit e).inLen = s.inLen := rfl
@[simp] theorem State.emit_oHdr (e : Event) (s : State) : (s.emit e).oHdr = s.oHdr := rfl
@[simp] theorem State.emit_oId (e : Event) (s : State) : (s.emit e).oId = s.oId := rfl
@[simp] theorem State.emit_oDlc (e : Event) (s : State) : (s.emit e).oDlc = s.oDlc := rfl
@[simp] theorem State.emit_oN (e : Event) (s : State) : (s.emit e).oN = s.oN := rfl
@[simp] theorem State.emit_iId (e : Event) (s : State) : (s.emit e).iId = s.iId := rfl
@[simp] theorem State.emit_iDlc (e : Event) (s : State) : (s.emit e).iDlc = s.iDlc := rfl
@[simp] theorem State.emit_iN (e : Event) (s : State) : (s.emit e).iN = s.iN := rfl
@[simp] theorem State.emit_iLen (e : Event) (s : State) : (s.emit e).iLen = s.iLen := rfl
@[simp] theorem State.emit_fault (e : Event) (s : State) : (s.emit e).fault = s.fault := rfl
@[simp] theorem State.emit_rxArmed (e : Event) (s : State) : (s.emit e).rxArmed = s.rxArmed := rfl
@[simp] theorem State.emit_diag (e : Event) (s : State) : (s.emit e).diag = s.diag := rfl
@[simp] theorem State.emit_oPhase (e : Event) (s : State) : (s.emit e).oPhase = s.oPhase := rfl
@[simp] theorem State.emit_iPhase (e : Event) (s : State) : (s.emit e).iPhase = s.iPhase := rfl
@[simp] theorem State.emit_hostSend (e : Event) (s : State) :
    (s.emit e).hostSend = s.hostSend := rfl
@[simp] theorem State.emit_rxTrigger (e : Event) (s : State) :
    (s.emit e).rxTrigger = s.rxTrigger := rfl
@[simp] theorem State.emit_port (e : Event) (s : State) : (s.emit e).port = s.port := rfl
@[simp] theorem State.emit_events (e : Event) (s : State) :
    (s.emit e).events = s.events ++ [e] := rfl
@[simp] theorem State.emit_agenda (e : Event) (s : State) : (s.emit e).agenda = s.agenda := rfl
@[simp] theorem State.emit_submitReplies (e : Event) (s : State) :
    (s.emit e).submitReplies = s.submitReplies := rfl
@[simp] theorem State.emit_transmitReplies (e : Event) (s : State) :
    (s.emit e).transmitReplies = s.transmitReplies := rfl
@[simp] theorem State.emit_spill (e : Event) (s : State) : (s.emit e).spill = s.spill := rfl

/-! ### `State.withPort` -/

@[simp] theorem State.withPort_cfg (v : PortValue) (s : State) : (s.withPort v).cfg = s.cfg := rfl
@[simp] theorem State.withPort_txb (v : PortValue) (s : State) : (s.withPort v).txb = s.txb := rfl
@[simp] theorem State.withPort_rxb (v : PortValue) (s : State) : (s.withPort v).rxb = s.rxb := rfl
@[simp] theorem State.withPort_inb (v : PortValue) (s : State) : (s.withPort v).inb = s.inb := rfl
@[simp] theorem State.withPort_inLen (v : PortValue) (s : State) :
    (s.withPort v).inLen = s.inLen := rfl
@[simp] theorem State.withPort_oHdr (v : PortValue) (s : State) :
    (s.withPort v).oHdr = s.oHdr := rfl
@[simp] theorem State.withPort_oId (v : PortValue) (s : State) : (s.withPort v).oId = s.oId := rfl
@[simp] theorem State.withPort_oDlc (v : PortValue) (s : State) :
    (s.withPort v).oDlc = s.oDlc := rfl
@[simp] theorem State.withPort_oN (v : PortValue) (s : State) : (s.withPort v).oN = s.oN := rfl
@[simp] theorem State.withPort_iId (v : PortValue) (s : State) : (s.withPort v).iId = s.iId := rfl
@[simp] theorem State.withPort_iDlc (v : PortValue) (s : State) :
    (s.withPort v).iDlc = s.iDlc := rfl
@[simp] theorem State.withPort_iN (v : PortValue) (s : State) : (s.withPort v).iN = s.iN := rfl
@[simp] theorem State.withPort_iLen (v : PortValue) (s : State) :
    (s.withPort v).iLen = s.iLen := rfl
@[simp] theorem State.withPort_fault (v : PortValue) (s : State) :
    (s.withPort v).fault = s.fault := rfl
@[simp] theorem State.withPort_rxArmed (v : PortValue) (s : State) :
    (s.withPort v).rxArmed = s.rxArmed := rfl
@[simp] theorem State.withPort_diag (v : PortValue) (s : State) :
    (s.withPort v).diag = s.diag := rfl
@[simp] theorem State.withPort_oPhase (v : PortValue) (s : State) :
    (s.withPort v).oPhase = s.oPhase := rfl
@[simp] theorem State.withPort_iPhase (v : PortValue) (s : State) :
    (s.withPort v).iPhase = s.iPhase := rfl
@[simp] theorem State.withPort_hostSend (v : PortValue) (s : State) :
    (s.withPort v).hostSend = s.hostSend := rfl
@[simp] theorem State.withPort_rxTrigger (v : PortValue) (s : State) :
    (s.withPort v).rxTrigger = s.rxTrigger := rfl
@[simp] theorem State.withPort_port (v : PortValue) (s : State) : (s.withPort v).port = v := rfl
@[simp] theorem State.withPort_events (v : PortValue) (s : State) :
    (s.withPort v).events = s.events := rfl
@[simp] theorem State.withPort_agenda (v : PortValue) (s : State) :
    (s.withPort v).agenda = s.agenda := rfl
@[simp] theorem State.withPort_submitReplies (v : PortValue) (s : State) :
    (s.withPort v).submitReplies = s.submitReplies := rfl
@[simp] theorem State.withPort_transmitReplies (v : PortValue) (s : State) :
    (s.withPort v).transmitReplies = s.transmitReplies := rfl
@[simp] theorem State.withPort_spill (v : PortValue) (s : State) :
    (s.withPort v).spill = s.spill := rfl

/-! ### `State.setFault` -/

@[simp] theorem State.setFault_cfg (c : FaultLatch) (s : State) : (s.setFault c).cfg = s.cfg := rfl
@[simp] theorem State.setFault_txb (c : FaultLatch) (s : State) : (s.setFault c).txb = s.txb := rfl
@[simp] theorem State.setFault_rxb (c : FaultLatch) (s : State) : (s.setFault c).rxb = s.rxb := rfl
@[simp] theorem State.setFault_inb (c : FaultLatch) (s : State) : (s.setFault c).inb = s.inb := rfl
@[simp] theorem State.setFault_inLen (c : FaultLatch) (s : State) :
    (s.setFault c).inLen = s.inLen := rfl
@[simp] theorem State.setFault_oHdr (c : FaultLatch) (s : State) :
    (s.setFault c).oHdr = s.oHdr := rfl
@[simp] theorem State.setFault_oId (c : FaultLatch) (s : State) : (s.setFault c).oId = s.oId := rfl
@[simp] theorem State.setFault_oDlc (c : FaultLatch) (s : State) :
    (s.setFault c).oDlc = s.oDlc := rfl
@[simp] theorem State.setFault_oN (c : FaultLatch) (s : State) : (s.setFault c).oN = s.oN := rfl
@[simp] theorem State.setFault_iId (c : FaultLatch) (s : State) : (s.setFault c).iId = s.iId := rfl
@[simp] theorem State.setFault_iDlc (c : FaultLatch) (s : State) :
    (s.setFault c).iDlc = s.iDlc := rfl
@[simp] theorem State.setFault_iN (c : FaultLatch) (s : State) : (s.setFault c).iN = s.iN := rfl
@[simp] theorem State.setFault_iLen (c : FaultLatch) (s : State) :
    (s.setFault c).iLen = s.iLen := rfl
@[simp] theorem State.setFault_fault (c : FaultLatch) (s : State) : (s.setFault c).fault = c := rfl
@[simp] theorem State.setFault_rxArmed (c : FaultLatch) (s : State) :
    (s.setFault c).rxArmed = s.rxArmed := rfl
@[simp] theorem State.setFault_diag (c : FaultLatch) (s : State) :
    (s.setFault c).diag = s.diag := rfl
@[simp] theorem State.setFault_oPhase (c : FaultLatch) (s : State) :
    (s.setFault c).oPhase = s.oPhase := rfl
@[simp] theorem State.setFault_iPhase (c : FaultLatch) (s : State) :
    (s.setFault c).iPhase = s.iPhase := rfl
@[simp] theorem State.setFault_hostSend (c : FaultLatch) (s : State) :
    (s.setFault c).hostSend = s.hostSend := rfl
@[simp] theorem State.setFault_rxTrigger (c : FaultLatch) (s : State) :
    (s.setFault c).rxTrigger = s.rxTrigger := rfl
@[simp] theorem State.setFault_port (c : FaultLatch) (s : State) :
    (s.setFault c).port = s.port := rfl
@[simp] theorem State.setFault_events (c : FaultLatch) (s : State) :
    (s.setFault c).events = s.events := rfl
@[simp] theorem State.setFault_agenda (c : FaultLatch) (s : State) :
    (s.setFault c).agenda = s.agenda := rfl
@[simp] theorem State.setFault_submitReplies (c : FaultLatch) (s : State) :
    (s.setFault c).submitReplies = s.submitReplies := rfl
@[simp] theorem State.setFault_transmitReplies (c : FaultLatch) (s : State) :
    (s.setFault c).transmitReplies = s.transmitReplies := rfl
@[simp] theorem State.setFault_spill (c : FaultLatch) (s : State) :
    (s.setFault c).spill = s.spill := rfl

/-! ### `startOutbound` -/

@[simp] theorem startOutbound_cfg (s : State) : (startOutbound s).cfg = s.cfg := rfl
@[simp] theorem startOutbound_txb (s : State) : (startOutbound s).txb = s.txb := rfl
@[simp] theorem startOutbound_rxb (s : State) : (startOutbound s).rxb = s.rxb := rfl
@[simp] theorem startOutbound_inb (s : State) : (startOutbound s).inb = s.inb := rfl
@[simp] theorem startOutbound_inLen (s : State) : (startOutbound s).inLen = s.inLen := rfl
@[simp] theorem startOutbound_oHdr (s : State) : (startOutbound s).oHdr = s.oHdr := rfl
@[simp] theorem startOutbound_oId (s : State) : (startOutbound s).oId = s.oId := rfl
@[simp] theorem startOutbound_oDlc (s : State) : (startOutbound s).oDlc = s.oDlc := rfl
@[simp] theorem startOutbound_oN (s : State) : (startOutbound s).oN = s.oN := rfl
@[simp] theorem startOutbound_iId (s : State) : (startOutbound s).iId = s.iId := rfl
@[simp] theorem startOutbound_iDlc (s : State) : (startOutbound s).iDlc = s.iDlc := rfl
@[simp] theorem startOutbound_iN (s : State) : (startOutbound s).iN = s.iN := rfl
@[simp] theorem startOutbound_iLen (s : State) : (startOutbound s).iLen = s.iLen := rfl
@[simp] theorem startOutbound_fault (s : State) : (startOutbound s).fault = s.fault := rfl
@[simp] theorem startOutbound_rxArmed (s : State) : (startOutbound s).rxArmed = s.rxArmed := rfl
@[simp] theorem startOutbound_diag (s : State) : (startOutbound s).diag = s.diag := rfl
@[simp] theorem startOutbound_oPhase (s : State) : (startOutbound s).oPhase = .o1 := rfl
@[simp] theorem startOutbound_iPhase (s : State) : (startOutbound s).iPhase = s.iPhase := rfl
@[simp] theorem startOutbound_hostSend (s : State) : (startOutbound s).hostSend = false := rfl
@[simp] theorem startOutbound_rxTrigger (s : State) :
    (startOutbound s).rxTrigger = s.rxTrigger := rfl
@[simp] theorem startOutbound_port (s : State) : (startOutbound s).port = s.port := rfl
@[simp] theorem startOutbound_events (s : State) : (startOutbound s).events = s.events := rfl
@[simp] theorem startOutbound_agenda (s : State) : (startOutbound s).agenda = s.agenda := rfl
@[simp] theorem startOutbound_submitReplies (s : State) :
    (startOutbound s).submitReplies = s.submitReplies := rfl
@[simp] theorem startOutbound_transmitReplies (s : State) :
    (startOutbound s).transmitReplies = s.transmitReplies := rfl
@[simp] theorem startOutbound_spill (s : State) : (startOutbound s).spill = s.spill := rfl

/-! ### `startInbound` -/

@[simp] theorem startInbound_cfg (s : State) : (startInbound s).cfg = s.cfg := rfl
@[simp] theorem startInbound_txb (s : State) : (startInbound s).txb = s.txb := rfl
@[simp] theorem startInbound_rxb (s : State) : (startInbound s).rxb = s.rxb := rfl
@[simp] theorem startInbound_inb (s : State) : (startInbound s).inb = s.inb := rfl
@[simp] theorem startInbound_inLen (s : State) : (startInbound s).inLen = s.inLen := rfl
@[simp] theorem startInbound_oHdr (s : State) : (startInbound s).oHdr = s.oHdr := rfl
@[simp] theorem startInbound_oId (s : State) : (startInbound s).oId = s.oId := rfl
@[simp] theorem startInbound_oDlc (s : State) : (startInbound s).oDlc = s.oDlc := rfl
@[simp] theorem startInbound_oN (s : State) : (startInbound s).oN = s.oN := rfl
@[simp] theorem startInbound_iId (s : State) : (startInbound s).iId = s.iId := rfl
@[simp] theorem startInbound_iDlc (s : State) : (startInbound s).iDlc = s.iDlc := rfl
@[simp] theorem startInbound_iN (s : State) : (startInbound s).iN = s.iN := rfl
@[simp] theorem startInbound_iLen (s : State) : (startInbound s).iLen = s.iLen := rfl
@[simp] theorem startInbound_fault (s : State) : (startInbound s).fault = s.fault := rfl
@[simp] theorem startInbound_rxArmed (s : State) : (startInbound s).rxArmed = s.rxArmed := rfl
@[simp] theorem startInbound_diag (s : State) : (startInbound s).diag = s.diag := rfl
@[simp] theorem startInbound_oPhase (s : State) : (startInbound s).oPhase = s.oPhase := rfl
@[simp] theorem startInbound_iPhase (s : State) : (startInbound s).iPhase = .i1a := rfl
@[simp] theorem startInbound_hostSend (s : State) : (startInbound s).hostSend = s.hostSend := rfl
@[simp] theorem startInbound_rxTrigger (s : State) : (startInbound s).rxTrigger = false := rfl
@[simp] theorem startInbound_port (s : State) : (startInbound s).port = s.port := rfl
@[simp] theorem startInbound_events (s : State) : (startInbound s).events = s.events := rfl
@[simp] theorem startInbound_agenda (s : State) : (startInbound s).agenda = s.agenda := rfl
@[simp] theorem startInbound_submitReplies (s : State) :
    (startInbound s).submitReplies = s.submitReplies := rfl
@[simp] theorem startInbound_transmitReplies (s : State) :
    (startInbound s).transmitReplies = s.transmitReplies := rfl
@[simp] theorem startInbound_spill (s : State) : (startInbound s).spill = s.spill := rfl

/-! ### `phaseO2` -/

@[simp] theorem phaseO2_cfg (s : State) : (phaseO2 s).cfg = s.cfg := rfl
@[simp] theorem phaseO2_txb (s : State) : (phaseO2 s).txb = s.txb := rfl
@[simp] theorem phaseO2_rxb (s : State) : (phaseO2 s).rxb = s.rxb := rfl
@[simp] theorem phaseO2_inb (s : State) : (phaseO2 s).inb = s.inb := rfl
@[simp] theorem phaseO2_inLen (s : State) : (phaseO2 s).inLen = s.inLen := rfl
@[simp] theorem phaseO2_oHdr (s : State) : (phaseO2 s).oHdr = s.oHdr := rfl
@[simp] theorem phaseO2_oId (s : State) : (phaseO2 s).oId = headerId s.oHdr := rfl
@[simp] theorem phaseO2_oDlc (s : State) : (phaseO2 s).oDlc = headerDlc s.oHdr := rfl
@[simp] theorem phaseO2_oN (s : State) : (phaseO2 s).oN = s.oN := rfl
@[simp] theorem phaseO2_iId (s : State) : (phaseO2 s).iId = s.iId := rfl
@[simp] theorem phaseO2_iDlc (s : State) : (phaseO2 s).iDlc = s.iDlc := rfl
@[simp] theorem phaseO2_iN (s : State) : (phaseO2 s).iN = s.iN := rfl
@[simp] theorem phaseO2_iLen (s : State) : (phaseO2 s).iLen = s.iLen := rfl
@[simp] theorem phaseO2_fault (s : State) : (phaseO2 s).fault = s.fault := rfl
@[simp] theorem phaseO2_rxArmed (s : State) : (phaseO2 s).rxArmed = s.rxArmed := rfl
@[simp] theorem phaseO2_diag (s : State) : (phaseO2 s).diag = s.diag := rfl
@[simp] theorem phaseO2_oPhase (s : State) : (phaseO2 s).oPhase = .o3 := rfl
@[simp] theorem phaseO2_iPhase (s : State) : (phaseO2 s).iPhase = s.iPhase := rfl
@[simp] theorem phaseO2_hostSend (s : State) : (phaseO2 s).hostSend = s.hostSend := rfl
@[simp] theorem phaseO2_rxTrigger (s : State) : (phaseO2 s).rxTrigger = s.rxTrigger := rfl
@[simp] theorem phaseO2_port (s : State) : (phaseO2 s).port = s.port := rfl
@[simp] theorem phaseO2_events (s : State) : (phaseO2 s).events = s.events := rfl
@[simp] theorem phaseO2_agenda (s : State) : (phaseO2 s).agenda = s.agenda := rfl
@[simp] theorem phaseO2_submitReplies (s : State) :
    (phaseO2 s).submitReplies = s.submitReplies := rfl
@[simp] theorem phaseO2_transmitReplies (s : State) :
    (phaseO2 s).transmitReplies = s.transmitReplies := rfl
@[simp] theorem phaseO2_spill (s : State) : (phaseO2 s).spill = s.spill := rfl

/-! ### `phaseI1a` -/

@[simp] theorem phaseI1a_cfg (s : State) : (phaseI1a s).cfg = s.cfg := rfl
@[simp] theorem phaseI1a_txb (s : State) : (phaseI1a s).txb = s.txb := rfl
@[simp] theorem phaseI1a_rxb (s : State) :
    (phaseI1a s).rxb =
      Memory.write (Memory.write s.rxb 0 (idLowByte s.iId)) 1 (idHighByte s.iId) := rfl
@[simp] theorem phaseI1a_inb (s : State) : (phaseI1a s).inb = s.inb := rfl
@[simp] theorem phaseI1a_inLen (s : State) : (phaseI1a s).inLen = s.inLen := rfl
@[simp] theorem phaseI1a_oHdr (s : State) : (phaseI1a s).oHdr = s.oHdr := rfl
@[simp] theorem phaseI1a_oId (s : State) : (phaseI1a s).oId = s.oId := rfl
@[simp] theorem phaseI1a_oDlc (s : State) : (phaseI1a s).oDlc = s.oDlc := rfl
@[simp] theorem phaseI1a_oN (s : State) : (phaseI1a s).oN = s.oN := rfl
@[simp] theorem phaseI1a_iId (s : State) : (phaseI1a s).iId = s.iId := rfl
@[simp] theorem phaseI1a_iDlc (s : State) : (phaseI1a s).iDlc = s.iDlc := rfl
@[simp] theorem phaseI1a_iN (s : State) : (phaseI1a s).iN = s.iN := rfl
@[simp] theorem phaseI1a_iLen (s : State) : (phaseI1a s).iLen = s.iLen := rfl
@[simp] theorem phaseI1a_fault (s : State) : (phaseI1a s).fault = s.fault := rfl
@[simp] theorem phaseI1a_rxArmed (s : State) : (phaseI1a s).rxArmed = s.rxArmed := rfl
@[simp] theorem phaseI1a_diag (s : State) : (phaseI1a s).diag = s.diag := rfl
@[simp] theorem phaseI1a_oPhase (s : State) : (phaseI1a s).oPhase = s.oPhase := rfl
@[simp] theorem phaseI1a_iPhase (s : State) : (phaseI1a s).iPhase = .i1b := rfl
@[simp] theorem phaseI1a_hostSend (s : State) : (phaseI1a s).hostSend = s.hostSend := rfl
@[simp] theorem phaseI1a_rxTrigger (s : State) : (phaseI1a s).rxTrigger = s.rxTrigger := rfl
@[simp] theorem phaseI1a_port (s : State) : (phaseI1a s).port = s.port := rfl
@[simp] theorem phaseI1a_events (s : State) : (phaseI1a s).events = s.events := rfl
@[simp] theorem phaseI1a_agenda (s : State) : (phaseI1a s).agenda = s.agenda := rfl
@[simp] theorem phaseI1a_submitReplies (s : State) :
    (phaseI1a s).submitReplies = s.submitReplies := rfl
@[simp] theorem phaseI1a_transmitReplies (s : State) :
    (phaseI1a s).transmitReplies = s.transmitReplies := rfl
@[simp] theorem phaseI1a_spill (s : State) : (phaseI1a s).spill = s.spill := rfl

/-! ### `phaseI1b` -/

@[simp] theorem phaseI1b_cfg (s : State) : (phaseI1b s).cfg = s.cfg := rfl
@[simp] theorem phaseI1b_txb (s : State) : (phaseI1b s).txb = s.txb := rfl
@[simp] theorem phaseI1b_rxb (s : State) :
    (phaseI1b s).rxb =
      Memory.write s.rxb 1 (Memory.read s.rxb 1 ||| dlcInByte1 s.iDlc) := rfl
@[simp] theorem phaseI1b_inb (s : State) : (phaseI1b s).inb = s.inb := rfl
@[simp] theorem phaseI1b_inLen (s : State) : (phaseI1b s).inLen = s.inLen := rfl
@[simp] theorem phaseI1b_oHdr (s : State) : (phaseI1b s).oHdr = s.oHdr := rfl
@[simp] theorem phaseI1b_oId (s : State) : (phaseI1b s).oId = s.oId := rfl
@[simp] theorem phaseI1b_oDlc (s : State) : (phaseI1b s).oDlc = s.oDlc := rfl
@[simp] theorem phaseI1b_oN (s : State) : (phaseI1b s).oN = s.oN := rfl
@[simp] theorem phaseI1b_iId (s : State) : (phaseI1b s).iId = s.iId := rfl
@[simp] theorem phaseI1b_iDlc (s : State) : (phaseI1b s).iDlc = s.iDlc := rfl
@[simp] theorem phaseI1b_iN (s : State) : (phaseI1b s).iN = s.iN := rfl
@[simp] theorem phaseI1b_iLen (s : State) : (phaseI1b s).iLen = s.iLen := rfl
@[simp] theorem phaseI1b_fault (s : State) : (phaseI1b s).fault = s.fault := rfl
@[simp] theorem phaseI1b_rxArmed (s : State) : (phaseI1b s).rxArmed = s.rxArmed := rfl
@[simp] theorem phaseI1b_diag (s : State) : (phaseI1b s).diag = s.diag := rfl
@[simp] theorem phaseI1b_oPhase (s : State) : (phaseI1b s).oPhase = s.oPhase := rfl
@[simp] theorem phaseI1b_iPhase (s : State) : (phaseI1b s).iPhase = .i2 := rfl
@[simp] theorem phaseI1b_hostSend (s : State) : (phaseI1b s).hostSend = s.hostSend := rfl
@[simp] theorem phaseI1b_rxTrigger (s : State) : (phaseI1b s).rxTrigger = s.rxTrigger := rfl
@[simp] theorem phaseI1b_port (s : State) : (phaseI1b s).port = s.port := rfl
@[simp] theorem phaseI1b_events (s : State) : (phaseI1b s).events = s.events := rfl
@[simp] theorem phaseI1b_agenda (s : State) : (phaseI1b s).agenda = s.agenda := rfl
@[simp] theorem phaseI1b_submitReplies (s : State) :
    (phaseI1b s).submitReplies = s.submitReplies := rfl
@[simp] theorem phaseI1b_transmitReplies (s : State) :
    (phaseI1b s).transmitReplies = s.transmitReplies := rfl
@[simp] theorem phaseI1b_spill (s : State) : (phaseI1b s).spill = s.spill := rfl

/-! ### `phaseI2` -/

@[simp] theorem phaseI2_cfg (s : State) : (phaseI2 s).cfg = s.cfg := rfl
@[simp] theorem phaseI2_txb (s : State) : (phaseI2 s).txb = s.txb := rfl
@[simp] theorem phaseI2_rxb (s : State) : (phaseI2 s).rxb = s.rxb := rfl
@[simp] theorem phaseI2_inb (s : State) : (phaseI2 s).inb = s.inb := rfl
@[simp] theorem phaseI2_inLen (s : State) : (phaseI2 s).inLen = s.inLen := rfl
@[simp] theorem phaseI2_oHdr (s : State) : (phaseI2 s).oHdr = s.oHdr := rfl
@[simp] theorem phaseI2_oId (s : State) : (phaseI2 s).oId = s.oId := rfl
@[simp] theorem phaseI2_oDlc (s : State) : (phaseI2 s).oDlc = s.oDlc := rfl
@[simp] theorem phaseI2_oN (s : State) : (phaseI2 s).oN = s.oN := rfl
@[simp] theorem phaseI2_iId (s : State) : (phaseI2 s).iId = s.iId := rfl
@[simp] theorem phaseI2_iDlc (s : State) : (phaseI2 s).iDlc = s.iDlc := rfl
@[simp] theorem phaseI2_iN (s : State) : (phaseI2 s).iN = byteCount s.iDlc := rfl
@[simp] theorem phaseI2_iLen (s : State) : (phaseI2 s).iLen = 2 + byteCount s.iDlc := rfl
@[simp] theorem phaseI2_fault (s : State) : (phaseI2 s).fault = s.fault := rfl
@[simp] theorem phaseI2_rxArmed (s : State) : (phaseI2 s).rxArmed = s.rxArmed := rfl
@[simp] theorem phaseI2_diag (s : State) : (phaseI2 s).diag = s.diag := rfl
@[simp] theorem phaseI2_oPhase (s : State) : (phaseI2 s).oPhase = s.oPhase := rfl
@[simp] theorem phaseI2_iPhase (s : State) : (phaseI2 s).iPhase = .i3 false := rfl
@[simp] theorem phaseI2_hostSend (s : State) : (phaseI2 s).hostSend = s.hostSend := rfl
@[simp] theorem phaseI2_rxTrigger (s : State) : (phaseI2 s).rxTrigger = s.rxTrigger := rfl
@[simp] theorem phaseI2_port (s : State) : (phaseI2 s).port = s.port := rfl
@[simp] theorem phaseI2_events (s : State) : (phaseI2 s).events = s.events := rfl
@[simp] theorem phaseI2_agenda (s : State) : (phaseI2 s).agenda = s.agenda := rfl
@[simp] theorem phaseI2_submitReplies (s : State) :
    (phaseI2 s).submitReplies = s.submitReplies := rfl
@[simp] theorem phaseI2_transmitReplies (s : State) :
    (phaseI2 s).transmitReplies = s.transmitReplies := rfl
@[simp] theorem phaseI2_spill (s : State) : (phaseI2 s).spill = s.spill := rfl

/-! ### `doToggle` -/

@[simp] theorem doToggle_cfg (s : State) : (doToggle s).cfg = s.cfg := rfl
@[simp] theorem doToggle_txb (s : State) : (doToggle s).txb = s.txb := rfl
@[simp] theorem doToggle_rxb (s : State) : (doToggle s).rxb = s.rxb := rfl
@[simp] theorem doToggle_inb (s : State) : (doToggle s).inb = s.inb := rfl
@[simp] theorem doToggle_inLen (s : State) : (doToggle s).inLen = s.inLen := rfl
@[simp] theorem doToggle_oHdr (s : State) : (doToggle s).oHdr = s.oHdr := rfl
@[simp] theorem doToggle_oId (s : State) : (doToggle s).oId = s.oId := rfl
@[simp] theorem doToggle_oDlc (s : State) : (doToggle s).oDlc = s.oDlc := rfl
@[simp] theorem doToggle_oN (s : State) : (doToggle s).oN = s.oN := rfl
@[simp] theorem doToggle_iId (s : State) : (doToggle s).iId = s.iId := rfl
@[simp] theorem doToggle_iDlc (s : State) : (doToggle s).iDlc = s.iDlc := rfl
@[simp] theorem doToggle_iN (s : State) : (doToggle s).iN = s.iN := rfl
@[simp] theorem doToggle_iLen (s : State) : (doToggle s).iLen = s.iLen := rfl
@[simp] theorem doToggle_fault (s : State) : (doToggle s).fault = s.fault := rfl
@[simp] theorem doToggle_rxArmed (s : State) : (doToggle s).rxArmed = s.rxArmed := rfl
@[simp] theorem doToggle_diag (s : State) : (doToggle s).diag = !s.diag := rfl
@[simp] theorem doToggle_oPhase (s : State) : (doToggle s).oPhase = s.oPhase := rfl
@[simp] theorem doToggle_iPhase (s : State) : (doToggle s).iPhase = s.iPhase := rfl
@[simp] theorem doToggle_hostSend (s : State) : (doToggle s).hostSend = s.hostSend := rfl
@[simp] theorem doToggle_rxTrigger (s : State) : (doToggle s).rxTrigger = s.rxTrigger := rfl
@[simp] theorem doToggle_port (s : State) : (doToggle s).port = s.port := rfl
@[simp] theorem doToggle_events (s : State) : (doToggle s).events = s.events ++ [.toggle] := rfl
@[simp] theorem doToggle_agenda (s : State) : (doToggle s).agenda = s.agenda := rfl
@[simp] theorem doToggle_submitReplies (s : State) :
    (doToggle s).submitReplies = s.submitReplies := rfl
@[simp] theorem doToggle_transmitReplies (s : State) :
    (doToggle s).transmitReplies = s.transmitReplies := rfl
@[simp] theorem doToggle_spill (s : State) : (doToggle s).spill = s.spill := rfl

/-! ### `doRearm` -/

@[simp] theorem doRearm_cfg (s : State) : (doRearm s).cfg = s.cfg := rfl
@[simp] theorem doRearm_txb (s : State) : (doRearm s).txb = s.txb := rfl
@[simp] theorem doRearm_rxb (s : State) : (doRearm s).rxb = s.rxb := rfl
@[simp] theorem doRearm_inb (s : State) : (doRearm s).inb = s.inb := rfl
@[simp] theorem doRearm_inLen (s : State) : (doRearm s).inLen = s.inLen := rfl
@[simp] theorem doRearm_oHdr (s : State) : (doRearm s).oHdr = s.oHdr := rfl
@[simp] theorem doRearm_oId (s : State) : (doRearm s).oId = s.oId := rfl
@[simp] theorem doRearm_oDlc (s : State) : (doRearm s).oDlc = s.oDlc := rfl
@[simp] theorem doRearm_oN (s : State) : (doRearm s).oN = s.oN := rfl
@[simp] theorem doRearm_iId (s : State) : (doRearm s).iId = s.iId := rfl
@[simp] theorem doRearm_iDlc (s : State) : (doRearm s).iDlc = s.iDlc := rfl
@[simp] theorem doRearm_iN (s : State) : (doRearm s).iN = s.iN := rfl
@[simp] theorem doRearm_iLen (s : State) : (doRearm s).iLen = s.iLen := rfl
@[simp] theorem doRearm_fault (s : State) : (doRearm s).fault = s.fault := rfl
@[simp] theorem doRearm_rxArmed (s : State) : (doRearm s).rxArmed = true := rfl
@[simp] theorem doRearm_diag (s : State) : (doRearm s).diag = s.diag := rfl
@[simp] theorem doRearm_oPhase (s : State) : (doRearm s).oPhase = s.oPhase := rfl
@[simp] theorem doRearm_iPhase (s : State) : (doRearm s).iPhase = s.iPhase := rfl
@[simp] theorem doRearm_hostSend (s : State) : (doRearm s).hostSend = s.hostSend := rfl
@[simp] theorem doRearm_rxTrigger (s : State) : (doRearm s).rxTrigger = s.rxTrigger := rfl
@[simp] theorem doRearm_port (s : State) : (doRearm s).port = s.port := rfl
@[simp] theorem doRearm_events (s : State) : (doRearm s).events = s.events ++ [.rearm] := rfl
@[simp] theorem doRearm_agenda (s : State) : (doRearm s).agenda = s.agenda := rfl
@[simp] theorem doRearm_submitReplies (s : State) :
    (doRearm s).submitReplies = s.submitReplies := rfl
@[simp] theorem doRearm_transmitReplies (s : State) :
    (doRearm s).transmitReplies = s.transmitReplies := rfl
@[simp] theorem doRearm_spill (s : State) : (doRearm s).spill = s.spill := rfl

end Sys2Proof.Machine
end

