-- ==== Sys2Proof/Laws/Outbound.lean ====
section
/-! SUPPORT. Once and for all, what the calls and OUTBOUND can do. -/

namespace Sys2Proof.Machine

open Sys2Proof

/-! ### Answers and faults -/

@[simp] theorem takeSubmitReply_nil {s : State} (h : s.submitReplies = []) :
    takeSubmitReply s = (.wait, s) := by
  simp [takeSubmitReply, h]

@[simp] theorem takeSubmitReply_cons {s : State} {r : Reply} {rs : List Reply}
    (h : s.submitReplies = r :: rs) :
    takeSubmitReply s = (r, { s with submitReplies := rs }) := by
  simp [takeSubmitReply, h]

@[simp] theorem takeTransmitReply_nil {s : State} (h : s.transmitReplies = []) :
    takeTransmitReply s = (.wait, s) := by
  simp [takeTransmitReply, h]

@[simp] theorem takeTransmitReply_cons {s : State} {r : Reply} {rs : List Reply}
    (h : s.transmitReplies = r :: rs) :
    takeTransmitReply s = (r, { s with transmitReplies := rs }) := by
  simp [takeTransmitReply, h]

/-- `raise Fault(1)` writes FAULT, emits the handler event and ends OUTBOUND. -/
theorem raiseFault_submit (s : State) :
    raiseFault .submit s =
      { s with fault := .submit, events := s.events ++ [.faultHandler 1], oPhase := .idle } := rfl

/-- `raise Fault(2)` writes FAULT, emits the handler event and ends INBOUND. -/
theorem raiseFault_transmit (s : State) :
    raiseFault .transmit s =
      { s with fault := .transmit, events := s.events ++ [.faultHandler 2], iPhase := .idle } := rfl

/-- What the answer of `submit` can change, in one place: the latch, the events, the phase. -/
theorem settleSubmit_frame (s : State) :
    ∃ f ev op sr, settleSubmit (takeSubmitReply s) =
      { s with fault := f, events := ev, oPhase := op, submitReplies := sr } := by
  rcases hr : s.submitReplies with _ | ⟨_ | _ | _, rs⟩
  · refine ⟨s.fault, s.events, .o5 true, s.submitReplies, ?_⟩
    rw [takeSubmitReply_nil hr]
    rfl
  · refine ⟨s.fault, s.events, .idle, rs, ?_⟩
    rw [takeSubmitReply_cons hr]
    rfl
  · refine ⟨.submit, s.events ++ [.faultHandler 1], .idle, rs, ?_⟩
    rw [takeSubmitReply_cons hr]
    rfl
  · refine ⟨s.fault, s.events, .o5 true, rs, ?_⟩
    rw [takeSubmitReply_cons hr]
    rfl

/-! ### OUTBOUND -/

/-- The DLC code of a request and the payload it promises. -/
abbrev reqDlc (req : List Byte) : DlcCode := headerDlc (headerOf req)

abbrev reqPayload (req : List Byte) : List Byte :=
  (req.drop 2).take (byteCount (reqDlc req)).toNat

/-- The checks that a request passes (R128, R123, R129). -/
def requestPasses (policy : Rsvd15Policy) (req : List Byte) : Prop :=
  ¬ (policy = .refuse ∧ headerRsvd (headerOf req) = true) ∧
    2 + (byteCount (reqDlc req)).toNat ≤ req.length

/-- The state in which O5 is about to call `submit`. -/
def atSubmit (req : List Byte) (s : State) : State :=
  { s with
    oHdr := headerOf req
    oId := headerId (headerOf req)
    oDlc := reqDlc req
    oN := byteCount (reqDlc req)
    txb := Memory.writeRange s.txb 0 (reqPayload req)
    oPhase := .o5 false }

theorem length_reqPayload {req : List Byte}
    (h : 2 + (byteCount (reqDlc req)).toNat ≤ req.length) :
    (reqPayload req).length = (byteCount (reqDlc req)).toNat := by
  simp [reqPayload]
  omega

/-- O4 runs inside its bounds once O3 has passed. -/
theorem finishO3_eq {req : List Byte} {s : State} (hd : s.oDlc = reqDlc req)
    (hlen : 2 + (byteCount (reqDlc req)).toNat ≤ req.length) :
    finishO3 req s = phaseO5 false
      { s with
        oN := byteCount (reqDlc req)
        txb := Memory.writeRange s.txb 0 (reqPayload req)
        oPhase := .o5 false } := by
  have hle := byteCount_le (reqDlc req)
  have h3 : ¬ req.length < 2 + (byteCount s.oDlc).toNat := by rw [hd]; omega
  simp only [finishO3, phaseO3, if_neg h3, andThen_next, finishO4, phaseO4]
  rw [if_pos (by simp only [copyInBounds, hd, bufCap]; omega), andThen_next]
  simp [hd]

/-- An OUTBOUND whose request passes its checks reaches the call of `submit`. -/
theorem finishO1_eq {req : List Byte} {s : State} (h : requestPasses s.cfg.rsvd15 req) :
    finishO1 req s = phaseO5 false (atSubmit req s) := by
  have h2 : ¬ req.length < 2 := by have := h.2; omega
  simp only [finishO1, phaseO1, if_neg h2, if_neg h.1, andThen_next, finishO2]
  rw [finishO3_eq rfl h.2]
  rfl

/-- The payload that O5 reads from TXB is the request's. -/
theorem readRange_atSubmit {req : List Byte} {s : State} (hwf : Memory.wf s.txb = true)
    (h : requestPasses s.cfg.rsvd15 req) :
    Memory.readRange (atSubmit req s).txb 0 (byteCount (reqDlc req)).toNat = reqPayload req := by
  have := Memory.readRange_writeRange hwf 0 (reqPayload req)
  rw [length_reqPayload h.2] at this
  exact this

theorem phaseO5_atSubmit (req : List Byte) (s : State) :
    phaseO5 false (atSubmit req s) = .next (settleSubmit
      (callSubmit (headerId (headerOf req)) (reqDlc req)
        (Memory.readRange (atSubmit req s).txb 0 (byteCount (reqDlc req)).toNat)
        (atSubmit req s))) := by
  have hle := byteCount_le (reqDlc req)
  simp only [phaseO5]
  rw [if_neg (by simp), if_pos (by simp only [atSubmit, bufCap]; omega)]
  rfl

/-- A request that does not pass is refused by name, in the order of R187. -/
theorem finishO1_stops {req : List Byte} {s : State} (h : ¬ requestPasses s.cfg.rsvd15 req) :
    finishO1 req s =
      if req.length < 2 then .refused .shortHeader
      else if s.cfg.rsvd15 = .refuse ∧ headerRsvd (headerOf req) = true then
        .refused .reservedBitSet
      else .refused .shortPayload := by
  simp only [finishO1, phaseO1]
  by_cases h2 : req.length < 2
  · simp [h2]
  · by_cases h15 : s.cfg.rsvd15 = .refuse ∧ headerRsvd (headerOf req) = true
    · simp [h2, h15]
    · have hlen : req.length < 2 + (byteCount (reqDlc req)).toNat := by
        by_contra hc
        exact h ⟨h15, by omega⟩
      simp only [if_neg h2, if_neg h15, andThen_next, finishO2, finishO3, phaseO3]
      rw [if_pos (by simpa using hlen), andThen_refused]

/-- Everything an OUTBOUND of a request can do when it answers a next state: nothing, when it is not
started; otherwise the request passes and the call of `submit` is settled. -/
theorem outboundOf_eq_next {req : List Byte} {s t : State} (h : outboundOf req s = .next t) :
    (¬ s.outboundStarts ∧ t = s) ∨
    (s.outboundStarts ∧ requestPasses s.cfg.rsvd15 req ∧
      t = settleSubmit (callSubmit (headerId (headerOf req)) (reqDlc req)
        (Memory.readRange (atSubmit req (startOutbound s)).txb 0
          (byteCount (reqDlc req)).toNat)
        (atSubmit req (startOutbound s)))) := by
  simp only [outboundOf] at h
  split at h
  · rename_i hs
    refine .inr ⟨hs, ?_⟩
    by_cases hp : requestPasses s.cfg.rsvd15 req
    · rw [finishO1_eq (s := startOutbound s) hp, phaseO5_atSubmit] at h
      exact ⟨hp, (Host.Outcome.next.inj h).symm⟩
    · rw [finishO1_stops (s := startOutbound s) hp] at h
      split at h <;> (try split at h) <;> simp at h
  · rename_i hs
    exact .inl ⟨hs, (Host.Outcome.next.inj h).symm⟩

/-- An OUTBOUND that is started and whose request passes answers the settled call. -/
theorem outboundOf_runs {req : List Byte} {s : State} (hs : s.outboundStarts)
    (hp : requestPasses s.cfg.rsvd15 req) (hwf : Memory.wf s.txb = true) :
    outboundOf req s = .next (settleSubmit
      (callSubmit (headerId (headerOf req)) (reqDlc req) (reqPayload req)
        (atSubmit req (startOutbound s)))) := by
  simp only [outboundOf, if_pos hs]
  rw [finishO1_eq (s := startOutbound s) hp, phaseO5_atSubmit,
    readRange_atSubmit (s := startOutbound s) hwf hp]

theorem outboundOf_not_started {req : List Byte} {s : State} (h : ¬ s.outboundStarts) :
    outboundOf req s = .next s := by
  simp only [outboundOf, if_neg h]

/-! ### Packets -/

/-- What executing a packet of form `d` does: OUTBOUND of its bytes. -/
theorem outboundOf_packet_passes {policy : Rsvd15Policy} {r : BitVec 1} {d : DlcCode} {id : Ident}
    {p : List Byte} (hl : p.length = (byteCount d).toNat) (hr : policy = .ignore ∨ r = 0) :
    requestPasses policy (packetBytes r d id p) := by
  constructor
  · simp only [headerOf_packetBytes, headerRsvd_packetHeader, decide_eq_true_eq]
    rintro ⟨rfl, h1⟩
    rcases hr with h | rfl
    · cases h
    · simp at h1
  · simp [reqDlc, hl]

end Sys2Proof.Machine
end

