-- ==== Sys2Proof/Laws/Collaborators.lean ====
section
/-! SUPPORT. Once and for all, what the boundary operations can do. -/

namespace Sys2Proof.Machine

open Sys2Proof

theorem wf_deliverBytes {m : Memory} (hwf : Memory.wf m = true) (d : DlcCode)
    (p spill : List Byte) : Memory.wf (deliverBytes d p spill m) = true :=
  Memory.wf_writeRange (Memory.wf_writeRange hwf _ _) _ _

/-- `deliver` writes inside RXB. -/
theorem below_deliverBytes {m : Memory} (hb : Memory.below bufCap m = true) {d : DlcCode}
    {p : List Byte} (hl : p.length = (byteCount d).toNat) (spill : List Byte) :
    Memory.below bufCap (deliverBytes d p spill m) = true := by
  have := byteCount_le d
  refine Memory.below_writeRange (Memory.below_writeRange hb ?_) ?_
  · simp only [bufCap]
    omega
  · simp only [bufCap, payloadMax, List.length_take]
    omega

/-- One byte of RXB after `deliver`: the payload, the spill, or what it held. -/
theorem read_deliverBytes {m : Memory} (hwf : Memory.wf m = true) {d : DlcCode} {p : List Byte}
    (hl : p.length = (byteCount d).toNat) (spill : List Byte) (a : Nat) :
    Memory.read (deliverBytes d p spill m) a =
      if a < 2 then Memory.read m a
      else if a < 2 + p.length then p.getD (a - 2) 0
      else if a < 2 + p.length + (spill.take (payloadMax - p.length)).length then
        (spill.take (payloadMax - p.length)).getD (a - (2 + p.length)) 0
      else Memory.read m a := by
  rw [deliverBytes, ← hl, Memory.read_writeRange (Memory.wf_writeRange hwf _ _),
    Memory.read_writeRange hwf]
  split_ifs <;> first | rfl | omega

/-- The delivered payload is what INBOUND will find at offset 2 (R162). -/
theorem readRange_deliverBytes {m : Memory} (hwf : Memory.wf m = true) {d : DlcCode}
    {p : List Byte} (hl : p.length = (byteCount d).toNat) (spill : List Byte) :
    Memory.readRange (deliverBytes d p spill m) 2 (byteCount d).toNat = p := by
  rw [deliverBytes, Memory.readRange_writeRange_disjoint (Memory.wf_writeRange hwf _ _) _ _ _ _
    (.inl (Nat.le_refl _)), ← hl, Memory.readRange_writeRange hwf]

/-- Everything `deliver` can do when it answers a next state. -/
theorem execDeliver_eq_next {id : Ident} {d : DlcCode} {p : List Byte} {s t : State} :
    execDeliver id d p s = .next t ↔
      s.rxArmed = true ∧ p.length = (byteCount d).toNat ∧
      t = { s with
        iId := id
        iDlc := d
        rxb := deliverBytes d p s.spill s.rxb
        spill := []
        rxArmed := false
        rxTrigger := decide (s.fault = .none) } := by
  simp only [execDeliver]
  by_cases hp : p.length = (byteCount d).toNat
  · by_cases ha : s.rxArmed = true
    · rw [if_neg (by simp [payloadFits, hp]), if_neg (by simp [ha])]
      constructor
      · intro h
        exact ⟨ha, hp, (Host.Outcome.next.inj h).symm⟩
      · rintro ⟨-, -, rfl⟩
        rfl
    · rw [if_neg (by simp [payloadFits, hp]), if_pos (by simpa using ha)]
      simp [ha]
  · rw [if_pos (by simp [payloadFits, hp])]
    simp [hp]

/-- Everything `submit` executed by itself can do when it answers a next state. -/
theorem execSubmit_eq_next {id : Ident} {d : DlcCode} {p : List Byte} {s t : State} :
    execSubmit id d p s = .next t ↔
      p.length = (byteCount d).toNat ∧
      t = (callSubmit id d p s).2.withPort (.answer (callSubmit id d p s).1) := by
  simp only [execSubmit, payloadFits_iff]
  split
  · rename_i h
    simp only [h, true_and, Host.Outcome.next.injEq]
    exact eq_comm
  · rename_i h
    simp [h]

/-- Everything `transmit` executed by itself can do when it answers a next state. -/
theorem execTransmit_eq_next {b : List Byte} {n : Count} {s t : State} :
    execTransmit b n s = .next t ↔
      bufferFits b n = true ∧
      t = (callTransmit b n s).2.withPort (.answer (callTransmit b n s).1) := by
  simp only [execTransmit]
  split
  · rename_i h
    simp only [h, true_and, Host.Outcome.next.injEq]
    exact eq_comm
  · rename_i h
    simp [h]

/-- The buffers of the reset state have the canonical form. -/
theorem State.reset_wf : Memory.wf State.reset.txb = true ∧ Memory.wf State.reset.rxb = true ∧
    Memory.wf State.reset.inb = true := ⟨rfl, rfl, rfl⟩

end Sys2Proof.Machine
end

