-- ==== Sys2Proof/Laws/Decode.lean ====
section
/-! SUPPORT. What the fetch decoder and the dispatch do with a packet. -/

namespace Sys2Proof.Machine

open Sys2Proof

/-- A packet's arm of `exec` is OUTBOUND of its bytes, whichever its form. -/
theorem exec_packet (d : DlcCode) (r : BitVec 1) (id : Ident) (p : List Byte) (s : State) :
    exec (Instr.packet d r id p) s = outboundOf (packetBytes r d id p) s := by
  have h : ∀ k : Fin 16, exec (Instr.packet (BitVec.ofFin k) r id p) s =
      outboundOf (packetBytes r (BitVec.ofFin k) id p) s := by
    intro k
    fin_cases k <;> rfl
  exact h d.toFin

/-- A request of at least two bytes is its header and what follows. -/
theorem request_split {req : List Byte} (h : 2 ≤ req.length) :
    req = hdrBytes (headerOf req) ++ req.drop 2 := by
  match req, h with
  | b0 :: b1 :: rest, _ =>
    simp [headerOf, hdrBytes_hdrOfBytes]

/-- The decoder on a request that passes the checks. -/
theorem decodePacket_passes {policy : Rsvd15Policy} {req : List Byte}
    (h : requestPasses policy req) :
    decodePacket policy req =
      .ok (Instr.packet (reqDlc req) ((headerOf req >>> 15).setWidth 1) (headerId (headerOf req))
          (reqPayload req))
        (req.drop (2 + (byteCount (reqDlc req)).toNat)) := by
  obtain ⟨hp, hl⟩ := h
  match req, hp, hl with
  | [], _, hl => simp at hl
  | [_], _, hl => simp only [List.length_singleton] at hl; omega
  | b0 :: b1 :: rest, hp, hl =>
    have hh : headerOf (b0 :: b1 :: rest) = hdrOfBytes b0 b1 := rfl
    simp only [reqDlc, reqPayload, hh] at hp hl ⊢
    simp only [List.length_cons] at hl
    simp only [decodePacket, takePayload]
    rw [if_neg hp, if_neg (by omega)]
    simp [Nat.add_comm 2]

/-- Its bytes are the request's first `2 + n`. -/
theorem packetBytes_of_request {req : List Byte} (h : 2 ≤ req.length) :
    packetBytes ((headerOf req >>> 15).setWidth 1) (reqDlc req) (headerId (headerOf req))
      (reqPayload req) = req.take (2 + (byteCount (reqDlc req)).toNat) := by
  rw [packetBytes, packetHeader_fields]
  match req, h with
  | b0 :: b1 :: rest, _ =>
    have hh : headerOf (b0 :: b1 :: rest) = hdrOfBytes b0 b1 := rfl
    simp only [reqDlc, reqPayload, hh, hdrBytes_hdrOfBytes]
    simp [Nat.add_comm 2]

end Sys2Proof.Machine
end

