-- ==== Sys2Proof/Laws/Inbound.lean ====
section
/-! SUPPORT. Once and for all, what INBOUND can do. -/

namespace Sys2Proof.Machine

open Sys2Proof

/-- RXB after I1a and I1b: bytes 0 and 1 are the header, nothing else changes (R142). -/
def composedRxb (s : State) : Memory :=
  Memory.write (Memory.write (Memory.write s.rxb 0 (idLowByte s.iId)) 1 (idHighByte s.iId)) 1
    (Memory.read (Memory.write (Memory.write s.rxb 0 (idLowByte s.iId)) 1 (idHighByte s.iId)) 1
      ||| dlcInByte1 s.iDlc)

/-- Composing the header is one write of its two bytes. -/
theorem read_composedRxb {s : State} (hwf : Memory.wf s.rxb = true) (a : Nat) :
    Memory.read (composedRxb s) a =
      Memory.read (Memory.writeRange s.rxb 0 (hdrBytes (packHeader s.iId s.iDlc))) a := by
  have h1 := Memory.wf_write hwf 0 (idLowByte s.iId)
  have h2 := Memory.wf_write h1 1 (idHighByte s.iId)
  rw [Memory.read_writeRange hwf, hdrBytes_packHeader]
  simp only [composedRxb]
  rw [Memory.read_write h2, Memory.read_write h1, Memory.read_write h1, Memory.read_write hwf]
  rcases a with _ | _ | a <;> simp [Memory.read_write hwf]

theorem wf_composedRxb {s : State} (hwf : Memory.wf s.rxb = true) :
    Memory.wf (composedRxb s) = true :=
  Memory.wf_write (Memory.wf_write (Memory.wf_write hwf _ _) _ _) _ _

theorem composedRxb_eq {s : State} (hwf : Memory.wf s.rxb = true) :
    composedRxb s = Memory.writeRange s.rxb 0 (hdrBytes (packHeader s.iId s.iDlc)) :=
  Memory.ext (wf_composedRxb hwf) (Memory.wf_writeRange hwf _ _) (read_composedRxb hwf)

/-- The packet that INBOUND sends: the header and the payload bytes of RXB (R151). -/
theorem readRange_composedRxb {s : State} (hwf : Memory.wf s.rxb = true) (n : Nat) :
    Memory.readRange (composedRxb s) 0 (2 + n) =
      serialize s.iId s.iDlc (Memory.readRange s.rxb 2 n) := by
  rw [composedRxb_eq hwf, Memory.readRange_append, serialize]
  congr 1
  · exact Memory.readRange_writeRange hwf 0 (hdrBytes (packHeader s.iId s.iDlc))
  · exact Memory.readRange_writeRange_disjoint hwf 0 _ _ _ (.inr (by simp))

/-- The state in which I3 is about to call `transmit`. -/
def atTransmit (s : State) : State :=
  { s with
    rxTrigger := false
    rxb := composedRxb s
    iN := byteCount s.iDlc
    iLen := packetLength s.iDlc
    iPhase := .i3 false }

theorem phaseI3_atTransmit (s : State) :
    phaseI3 false (atTransmit s) = .next (settleTransmit
      (callTransmit (Memory.readRange (composedRxb s) 0 (packetLength s.iDlc).toNat)
        (packetLength s.iDlc) (atTransmit s))) := by
  have h := packetLength_toNat s.iDlc
  have hle := byteCount_le s.iDlc
  simp only [phaseI3]
  rw [if_neg (by simp), if_pos (by simp only [atTransmit, bufCap]; omega)]
  rfl

/-- Everything an INBOUND does: the header is composed, `transmit` is called and settled, and after an
`ok` come toggle and rearm. It always answers a next state. -/
theorem execInbound_eq (s : State) :
    execInbound s =
      if s.inboundStarts then
        afterTransmit (settleTransmit
          (callTransmit (Memory.readRange (composedRxb s) 0 (packetLength s.iDlc).toNat)
            (packetLength s.iDlc) (atTransmit s)))
      else .next s := by
  simp only [execInbound]
  split
  · have : resumeInbound (startInbound s) = finishI3 false (atTransmit s) := rfl
    rw [this, finishI3, phaseI3_atTransmit, andThen_next]
  · rfl

theorem afterTransmit_settle_ok (s : State) :
    afterTransmit (settleTransmit (.ok, s)) =
      .next { s with
        diag := !s.diag
        rxArmed := true
        events := s.events ++ [.toggle, .rearm]
        iPhase := .idle } := by
  simp [settleTransmit, afterTransmit, phaseI4, phaseI5, doToggle, doRearm, State.emit]

theorem afterTransmit_settle_fault (s : State) :
    afterTransmit (settleTransmit (.fault, s)) = .next (raiseFault .transmit s) := rfl

theorem afterTransmit_settle_wait (s : State) :
    afterTransmit (settleTransmit (.wait, s)) = .next { s with iPhase := .i3 true } := rfl

/-- What the answer of `transmit` can change, in one place: the latch, the events, the phase, `diag` and
`rx_armed`. -/
theorem afterTransmit_frame (s : State) :
    ∃ f ev ip tr dg ar, afterTransmit (settleTransmit (takeTransmitReply s)) =
      .next { s with
        fault := f, events := ev, iPhase := ip, transmitReplies := tr, diag := dg, rxArmed := ar } := by
  rcases hr : s.transmitReplies with _ | ⟨_ | _ | _, rs⟩
  · refine ⟨s.fault, s.events, .i3 true, s.transmitReplies, s.diag, s.rxArmed, ?_⟩
    rw [takeTransmitReply_nil hr, afterTransmit_settle_wait]
  · refine ⟨s.fault, s.events ++ [.toggle, .rearm], .idle, rs, !s.diag, true, ?_⟩
    rw [takeTransmitReply_cons hr, afterTransmit_settle_ok]
  · refine ⟨.transmit, s.events ++ [.faultHandler 2], .idle, rs, s.diag, s.rxArmed, ?_⟩
    rw [takeTransmitReply_cons hr, afterTransmit_settle_fault, raiseFault_transmit]
  · refine ⟨s.fault, s.events, .i3 true, rs, s.diag, s.rxArmed, ?_⟩
    rw [takeTransmitReply_cons hr, afterTransmit_settle_wait]

end Sys2Proof.Machine
end

