-- ==== Sys2Proof/Laws/PerInstr.lean ====
section
/-! SUPPORT. Statements about every operation as syntax, one lemma per constructor. -/

namespace Sys2Proof.Laws.EncodedLength

open Sys2Proof

/-- The number of bytes that the table's row gives an operation (30_encoding.md rules R75, R78 for the
packets; log 16 for the others). -/
def tableLength : Instr → Nat
  | .wpDlc0 _ _ _ => 2
  | .wpDlc1 _ _ _ => 3
  | .wpDlc2 _ _ _ => 4
  | .wpDlc3 _ _ _ => 5
  | .wpDlc4 _ _ _ => 6
  | .wpDlc5 _ _ _ => 7
  | .wpDlc6 _ _ _ => 8
  | .wpDlc7 _ _ _ => 9
  | .wpDlc8 _ _ _ => 10
  | .wpDlc9 _ _ _ => 14
  | .wpDlc10 _ _ _ => 18
  | .wpDlc11 _ _ _ => 22
  | .wpDlc12 _ _ _ => 26
  | .wpDlc13 _ _ _ => 34
  | .wpDlc14 _ _ _ => 50
  | .wpDlc15 _ _ _ => 66
  | .byteCount _ => 1
  | .packHeader _ _ => 2
  | .unpackHeader _ => 2
  | .outbound => 0
  | .inbound => 0
  | .submit _ d _ => (packetLength d).toNat
  | .deliver _ d _ => (packetLength d).toNat
  | .rearm => 0
  | .transmit _ n => 1 + n.toNat
  | .toggle => 0
  | .faultHandler _ => 1

/-- A well-formed operation is as long as its row says. -/
def Statement (i : Instr) : Prop := i.wellFormed = true → (encode i).length = tableLength i

theorem length_of_fits {d : DlcCode} {r : BitVec 1} {id : Ident} {p : List Byte}
    (h : payloadFits d p = true) :
    (packetBytes r d id p).length = (packetLength d).toNat := by
  rw [length_packetBytes, packetLength_toNat, (payloadFits_iff d p).mp h]

theorem wpDlc0 (r : BitVec 1) (id : Ident) (p : List Byte) : Statement (.wpDlc0 r id p) :=
  fun h => length_of_fits h

theorem wpDlc1 (r : BitVec 1) (id : Ident) (p : List Byte) : Statement (.wpDlc1 r id p) :=
  fun h => length_of_fits h

theorem wpDlc2 (r : BitVec 1) (id : Ident) (p : List Byte) : Statement (.wpDlc2 r id p) :=
  fun h => length_of_fits h

theorem wpDlc3 (r : BitVec 1) (id : Ident) (p : List Byte) : Statement (.wpDlc3 r id p) :=
  fun h => length_of_fits h

theorem wpDlc4 (r : BitVec 1) (id : Ident) (p : List Byte) : Statement (.wpDlc4 r id p) :=
  fun h => length_of_fits h

theorem wpDlc5 (r : BitVec 1) (id : Ident) (p : List Byte) : Statement (.wpDlc5 r id p) :=
  fun h => length_of_fits h

theorem wpDlc6 (r : BitVec 1) (id : Ident) (p : List Byte) : Statement (.wpDlc6 r id p) :=
  fun h => length_of_fits h

theorem wpDlc7 (r : BitVec 1) (id : Ident) (p : List Byte) : Statement (.wpDlc7 r id p) :=
  fun h => length_of_fits h

theorem wpDlc8 (r : BitVec 1) (id : Ident) (p : List Byte) : Statement (.wpDlc8 r id p) :=
  fun h => length_of_fits h

theorem wpDlc9 (r : BitVec 1) (id : Ident) (p : List Byte) : Statement (.wpDlc9 r id p) :=
  fun h => length_of_fits h

theorem wpDlc10 (r : BitVec 1) (id : Ident) (p : List Byte) : Statement (.wpDlc10 r id p) :=
  fun h => length_of_fits h

theorem wpDlc11 (r : BitVec 1) (id : Ident) (p : List Byte) : Statement (.wpDlc11 r id p) :=
  fun h => length_of_fits h

theorem wpDlc12 (r : BitVec 1) (id : Ident) (p : List Byte) : Statement (.wpDlc12 r id p) :=
  fun h => length_of_fits h

theorem wpDlc13 (r : BitVec 1) (id : Ident) (p : List Byte) : Statement (.wpDlc13 r id p) :=
  fun h => length_of_fits h

theorem wpDlc14 (r : BitVec 1) (id : Ident) (p : List Byte) : Statement (.wpDlc14 r id p) :=
  fun h => length_of_fits h

theorem wpDlc15 (r : BitVec 1) (id : Ident) (p : List Byte) : Statement (.wpDlc15 r id p) :=
  fun h => length_of_fits h

theorem byteCount (d : DlcCode) : Statement (.byteCount d) := fun _ => rfl

theorem packHeader (id : Ident) (d : DlcCode) : Statement (.packHeader id d) := fun _ => rfl

theorem unpackHeader (h : Header) : Statement (.unpackHeader h) := fun _ => rfl

theorem outbound : Statement .outbound := fun _ => rfl

theorem inbound : Statement .inbound := fun _ => rfl

theorem submit (id : Ident) (d : DlcCode) (p : List Byte) : Statement (.submit id d p) :=
  fun h => length_of_fits h

theorem deliver (id : Ident) (d : DlcCode) (p : List Byte) : Statement (.deliver id d p) :=
  fun h => length_of_fits h

theorem rearm : Statement .rearm := fun _ => rfl

theorem transmit (b : List Byte) (n : Count) : Statement (.transmit b n) := by
  intro h
  simp only [Instr.wellFormed, bufferFits, Bool.and_eq_true, beq_iff_eq] at h
  simp only [encode, List.length_cons, tableLength, h.2]
  omega

theorem toggle : Statement .toggle := fun _ => rfl

theorem faultHandler (c : BitVec 2) : Statement (.faultHandler c) := fun _ => rfl

end Sys2Proof.Laws.EncodedLength
end

