-- ==== Sys2Proof/Laws/Schedule.lean ====
section
/-! SUPPORT. Once and for all, what a step can be. -/

namespace Sys2Proof.Machine

open Sys2Proof

/-- The two ways a step comes about: the agenda is empty and the block runs its next operation, or the
head of the agenda happens. -/
theorem step_cases {s : State} {a : Answer} (h : step s = a) :
    (s.agenda = [] ∧ runOperation s = a) ∨
    ∃ x rest, s.agenda = x :: rest ∧ applyStimulus x { s with agenda := rest } = a := by
  simp only [step, stepOnce] at h
  rcases hx : s.agenda with _ | ⟨x, rest⟩
  · rw [hx] at h
    exact .inl ⟨rfl, h⟩
  · rw [hx] at h
    exact .inr ⟨x, rest, rfl, h⟩

/-- With an empty agenda a step is the block's next operation. -/
theorem step_of_agenda_nil {s : State} (h : s.agenda = []) : step s = runOperation s := by
  simp only [step, stepOnce, h]

/-- Otherwise it is the head of the agenda. -/
theorem step_of_agenda_cons {s : State} {x : Stimulus} {rest : List Stimulus}
    (h : s.agenda = x :: rest) : step s = applyStimulus x { s with agenda := rest } := by
  simp only [step, stepOnce, h]

/-- While FAULT is not 0 there is nothing to do (R184). -/
theorem work_of_fault {s : State} (h : s.fault ≠ .none) : s.work = .nothing := by
  simp [State.work, h]

/-- Whatever there is to do, FAULT is 0. -/
theorem fault_of_work {s : State} (h : s.work ≠ .nothing) : s.fault = .none := by
  by_contra hf
  exact h (work_of_fault hf)

/-- INBOUND starts only on its trigger. -/
theorem rxTrigger_of_work {s : State} (h : s.work = .startInbound) :
    s.rxTrigger = true ∧ s.iPhase = .idle := by
  simp only [State.work] at h
  split_ifs at h with h1 h2 h3
  exact ⟨h3, by simpa using h2⟩

/-- An idle block with a waiting request fetches it. -/
theorem work_of_request {s : State} (hf : s.fault = .none) (hi : s.iPhase = .idle)
    (ht : s.rxTrigger = false) (ho : s.oPhase = .idle) (hh : s.hostSend = true) :
    s.work = .startOutbound := by
  simp [State.work, hf, hi, ht, ho, hh]

/-- A request that the decoder accepts passes the checks of OUTBOUND. -/
theorem passes_of_decodePacket {policy : Rsvd15Policy} {req rest : List Byte} {i : Instr}
    (h : decodePacket policy req = .ok i rest) : requestPasses policy req := by
  match req, h with
  | [], h => simp [decodePacket] at h
  | [_], h => simp [decodePacket] at h
  | b0 :: b1 :: tl, h =>
    simp only [decodePacket, takePayload] at h
    split at h
    · cases h
    · rename_i hp
      split at h
      · cases h
      · rename_i hl
        refine ⟨hp, ?_⟩
        simp only [reqDlc, headerOf, List.getD_cons_zero, List.getD_cons_succ, List.length_cons]
        omega

end Sys2Proof.Machine
end

