-- ==== Sys2Proof/Tests/Slice0.lean ====
section
/-! SUPPORT. The model's own tests. Expected results are the vectors of 95_test_vectors.md (named V-..) or
computed by hand from the rules of spec/; each test is about one operation or one step. -/

namespace Sys2Proof.Tests

open Sys2Proof Sys2Proof.Machine

/-! ### Small states -/

/-- The launch state (R214) with the answers of the two calls. -/
def launch (submitAnswers transmitAnswers : List Reply) : State :=
  { State.reset with
    rxArmed := true
    submitReplies := submitAnswers
    transmitReplies := transmitAnswers }

/-- A field of a next state; nothing after a stop. -/
def field {α : Type} (f : State → α) : Answer → Option α
  | .next t => some (f t)
  | .fault _ => none
  | .refused _ => none

/-- Why an operation was refused. -/
def refusal : Answer → Option Refusal
  | .next _ => none
  | .fault _ => none
  | .refused e => some e

/-- The fault a step ended in. -/
def faultOf : Answer → Option Fault
  | .next _ => none
  | .fault e => some e
  | .refused _ => none

/-- `n` bytes, counting up from `b`. -/
def rising (b n : Nat) : List Byte := (List.range n).map fun k => BitVec.ofNat 8 (b + k)

/-- The state in which a request waits in IN. -/
def waiting (req : List Byte) (s : State) : State :=
  { s with inb := Memory.ofBytes req, inLen := req.length, hostSend := true }

/-- A frame delivered to the launch state, INBOUND not yet started. -/
def delivered (id : Ident) (d : DlcCode) (p : List Byte) (answer : Reply) : State :=
  { launch [] [answer] with
    iId := id
    iDlc := d
    rxb := Memory.writeRange [] 2 p
    rxArmed := false
    rxTrigger := true }

/-! ### Well-formedness: an ill-formed term for each check -/

theorem test_ill_formed_wpDlc0 : (Instr.wpDlc0 0 0 [0x00]).wellFormed = false := by decide
theorem test_ill_formed_wpDlc1 : (Instr.wpDlc1 0 0 (rising 0 0)).wellFormed = false := by decide
theorem test_ill_formed_wpDlc2 : (Instr.wpDlc2 0 0 (rising 0 1)).wellFormed = false := by decide
theorem test_ill_formed_wpDlc3 : (Instr.wpDlc3 0 0 (rising 0 2)).wellFormed = false := by decide
theorem test_ill_formed_wpDlc4 : (Instr.wpDlc4 0 0 (rising 0 3)).wellFormed = false := by decide
theorem test_ill_formed_wpDlc5 : (Instr.wpDlc5 0 0 (rising 0 4)).wellFormed = false := by decide
theorem test_ill_formed_wpDlc6 : (Instr.wpDlc6 0 0 (rising 0 5)).wellFormed = false := by decide
theorem test_ill_formed_wpDlc7 : (Instr.wpDlc7 0 0 (rising 0 6)).wellFormed = false := by decide
theorem test_ill_formed_wpDlc8 : (Instr.wpDlc8 0 0 (rising 0 7)).wellFormed = false := by decide
theorem test_ill_formed_wpDlc9 : (Instr.wpDlc9 0 0 (rising 0 11)).wellFormed = false := by decide
theorem test_ill_formed_wpDlc10 : (Instr.wpDlc10 0 0 (rising 0 15)).wellFormed = false := by decide
theorem test_ill_formed_wpDlc11 : (Instr.wpDlc11 0 0 (rising 0 19)).wellFormed = false := by decide
theorem test_ill_formed_wpDlc12 : (Instr.wpDlc12 0 0 (rising 0 23)).wellFormed = false := by decide
theorem test_ill_formed_wpDlc13 : (Instr.wpDlc13 0 0 (rising 0 31)).wellFormed = false := by decide
theorem test_ill_formed_wpDlc14 : (Instr.wpDlc14 0 0 (rising 0 47)).wellFormed = false := by decide
theorem test_ill_formed_wpDlc15 : (Instr.wpDlc15 0 0 (rising 0 63)).wellFormed = false := by decide
theorem test_ill_formed_submit : (Instr.submit 0 9 (rising 0 9)).wellFormed = false := by decide
theorem test_ill_formed_deliver : (Instr.deliver 0 9 (rising 0 13)).wellFormed = false := by decide
theorem test_ill_formed_transmit_length : (Instr.transmit (rising 0 11) 11).wellFormed = false := by
  decide
theorem test_ill_formed_transmit_buffer : (Instr.transmit (rising 0 9) 10).wellFormed = false := by
  decide
theorem test_ill_formed_fault_code_0 : (Instr.faultHandler 0).wellFormed = false := by decide
theorem test_ill_formed_fault_code_3 : (Instr.faultHandler 3).wellFormed = false := by decide
theorem test_well_formed_ends : (Instr.wpDlc0 1 0x7FF []).wellFormed = true ∧
    (Instr.wpDlc15 1 0x7FF (rising 0 64)).wellFormed = true ∧
    (Instr.transmit (rising 0 66) 66).wellFormed = true ∧
    (Instr.transmit [0x00, 0x00] 2).wellFormed = true := by decide

/-! ### Decoding: words written out from R70, R71 and R76

The comment gives the header bits as `r dddd iiiiiiiiiii`; the low byte comes first. -/

/-- `0 0000 00000001001`. -/
theorem test_decode_wpDlc0 : decode .hostSend .ignore [0x09, 0x00] =
    .ok (.wpDlc0 0 0x009 []) [] := by decide
/-- `0 0001 00011111111`. -/
theorem test_decode_wpDlc1 : decode .hostSend .ignore ([0xFF, 0x08] ++ rising 90 1) =
    .ok (.wpDlc1 0 0x0FF (rising 90 1)) [] := by decide
/-- `0 0010 00000000001`. -/
theorem test_decode_wpDlc2 : decode .hostSend .ignore ([0x01, 0x10] ++ rising 222 2) =
    .ok (.wpDlc2 0 0x001 (rising 222 2)) [] := by decide
/-- `0 0011 00100100011`. -/
theorem test_decode_wpDlc3 : decode .hostSend .ignore ([0x23, 0x19] ++ rising 1 3) =
    .ok (.wpDlc3 0 0x123 (rising 1 3)) [] := by decide
/-- `1 0100 10101010101`. -/
theorem test_decode_wpDlc4 : decode .hostSend .ignore ([0x55, 0xA5] ++ rising 1 4) =
    .ok (.wpDlc4 1 0x555 (rising 1 4)) [] := by decide
/-- `0 0101 01010101010`. -/
theorem test_decode_wpDlc5 : decode .hostSend .ignore ([0xAA, 0x2A] ++ rising 1 5) =
    .ok (.wpDlc5 0 0x2AA (rising 1 5)) [] := by decide
/-- `0 0110 00000000001`. -/
theorem test_decode_wpDlc6 : decode .hostSend .ignore ([0x01, 0x30] ++ rising 1 6) =
    .ok (.wpDlc6 0 0x001 (rising 1 6)) [] := by decide
/-- `0 0111 11100000000`. -/
theorem test_decode_wpDlc7 : decode .hostSend .ignore ([0x00, 0x3F] ++ rising 7 7) =
    .ok (.wpDlc7 0 0x700 (rising 7 7)) [] := by decide
/-- `0 1000 10000000000`. -/
theorem test_decode_wpDlc8 : decode .hostSend .ignore ([0x00, 0x44] ++ rising 16 8) =
    .ok (.wpDlc8 0 0x400 (rising 16 8)) [] := by decide
/-- `0 1001 00100100011`. -/
theorem test_decode_wpDlc9 : decode .hostSend .ignore ([0x23, 0x49] ++ rising 1 12) =
    .ok (.wpDlc9 0 0x123 (rising 1 12)) [] := by decide
/-- `0 1010 10101010101`. -/
theorem test_decode_wpDlc10 : decode .hostSend .ignore ([0x55, 0x55] ++ rising 192 16) =
    .ok (.wpDlc10 0 0x555 (rising 192 16)) [] := by decide
/-- `0 1011 00001010101`. -/
theorem test_decode_wpDlc11 : decode .hostSend .ignore ([0x55, 0x58] ++ rising 1 20) =
    .ok (.wpDlc11 0 0x055 (rising 1 20)) [] := by decide
/-- `0 1100 11111111111`. -/
theorem test_decode_wpDlc12 : decode .hostSend .ignore ([0xFF, 0x67] ++ rising 1 24) =
    .ok (.wpDlc12 0 0x7FF (rising 1 24)) [] := by decide
/-- `0 1101 00000000001`. -/
theorem test_decode_wpDlc13 : decode .hostSend .ignore ([0x01, 0x68] ++ rising 1 32) =
    .ok (.wpDlc13 0 0x001 (rising 1 32)) [] := by decide
/-- `1 1110 00100000000`. -/
theorem test_decode_wpDlc14 : decode .hostSend .ignore ([0x00, 0xF1] ++ rising 1 48) =
    .ok (.wpDlc14 1 0x100 (rising 1 48)) [] := by decide
/-- `0 1111 00000000000`. -/
theorem test_decode_wpDlc15 : decode .hostSend .ignore ([0x00, 0x78] ++ rising 1 64) =
    .ok (.wpDlc15 0 0x000 (rising 1 64)) [] := by decide
/-- Row ByteCount, pattern `dddd`: `00001111`. -/
theorem test_decode_byteCount : decode .byteCount .ignore [0x0F] = .ok (.byteCount 15) [] ∧
    decode .byteCount .ignore [0x10] = .reject .outsidePattern := by decide
/-- Row packHeader, pattern `0 1001 00100100011`. -/
theorem test_decode_packHeader : decode .packHeader .ignore [0x23, 0x49] =
    .ok (.packHeader 0x123 9) [] ∧
    decode .packHeader .ignore [0x23, 0xC9] = .reject .outsidePattern := by decide
/-- Row unpackHeader, pattern `1 1001 00100100011`. -/
theorem test_decode_unpackHeader : decode .unpackHeader .ignore [0x23, 0xC9] =
    .ok (.unpackHeader 0xC923) [] := by decide
/-- Rows without operands: no byte is read. -/
theorem test_decode_no_operands : decode .outbound .ignore [] = .ok .outbound [] ∧
    decode .inbound .ignore [] = .ok .inbound [] ∧ decode .rearm .ignore [] = .ok .rearm [] ∧
    decode .toggle .ignore [] = .ok .toggle [] := by decide
/-- Row submit, pattern `0010 00000000001` and the payload. -/
theorem test_decode_submit : decode .submit .ignore [0x01, 0x10, 0xDE, 0xAD] =
    .ok (.submit 0x001 2 [0xDE, 0xAD]) [] := by decide
/-- Row deliver, pattern `0001 00100000000` and the payload. -/
theorem test_decode_deliver : decode .deliver .ignore [0x00, 0x09, 0xA5] =
    .ok (.deliver 0x100 1 [0xA5]) [] := by decide
/-- Row transmit, pattern `0000010` and the buffer. -/
theorem test_decode_transmit : decode .transmit .ignore [0x02, 0xFF, 0x07] =
    .ok (.transmit [0xFF, 0x07] 2) [] ∧
    decode .transmit .ignore [0x01, 0xFF] = .reject .notAPacketLength := by decide
/-- Row fault_handler, pattern `cc`: `01` and `10`, never `00` or `11`. -/
theorem test_decode_faultHandler : decode .faultHandler .ignore [0x01] = .ok (.faultHandler 1) [] ∧
    decode .faultHandler .ignore [0x02] = .ok (.faultHandler 2) [] ∧
    decode .faultHandler .ignore [0x00] = .reject .reservedFaultCode ∧
    decode .faultHandler .ignore [0x03] = .reject .reservedFaultCode := by decide
/-- The table's numbering: bit 0 is the least significant bit of the first byte, all above are 0. -/
theorem test_decode_table_word : decodeTableWord 16 0x0009 = some (.wpDlc0 0 0x009 []) ∧
    decodeTableWord 24 0x5A08FF = some (.wpDlc1 0 0x0FF [0x5A]) ∧
    decodeTableWord 16 0x1001 = some (.wpDlc2 0 0x001 [0x00, 0x00]) := by decide
theorem test_decode_table_word_longest : decodeTableWord 16 0x7800 =
    some (.wpDlc15 0 0 (List.replicate 64 0x00)) := by decide

/-! ### One packet of each form: the submit event -/

/-- V-O1. -/
theorem test_wpDlc0_submits :
    field State.events (exec (.wpDlc0 0 0x009 []) (launch [.ok] [])) =
      some [.submit 0x009 0 []] := by decide
/-- V-O4. -/
theorem test_wpDlc1_submits :
    field State.events (exec (.wpDlc1 0 0x0FF (rising 90 1)) (launch [.ok] [])) =
      some [.submit 0x0FF 1 (rising 90 1)] := by decide
/-- V-O10. -/
theorem test_wpDlc2_submits :
    field State.events (exec (.wpDlc2 0 0x001 (rising 222 2)) (launch [.ok] [])) =
      some [.submit 0x001 2 (rising 222 2)] := by decide
/-- R75, R125. -/
theorem test_wpDlc3_submits :
    field State.events (exec (.wpDlc3 0 0x123 (rising 1 3)) (launch [.ok] [])) =
      some [.submit 0x123 3 (rising 1 3)] := by decide
/-- V-U11, R125. -/
theorem test_wpDlc4_submits :
    field State.events (exec (.wpDlc4 1 0x555 (rising 1 4)) (launch [.ok] [])) =
      some [.submit 0x555 4 (rising 1 4)] := by decide
/-- V-O7. -/
theorem test_wpDlc5_submits :
    field State.events (exec (.wpDlc5 0 0x2AA (rising 1 5)) (launch [.ok] [])) =
      some [.submit 0x2AA 5 (rising 1 5)] := by decide
/-- R75, R125. -/
theorem test_wpDlc6_submits :
    field State.events (exec (.wpDlc6 0 0x001 (rising 1 6)) (launch [.ok] [])) =
      some [.submit 0x001 6 (rising 1 6)] := by decide
/-- V-H15, R125. -/
theorem test_wpDlc7_submits :
    field State.events (exec (.wpDlc7 0 0x700 (rising 7 7)) (launch [.ok] [])) =
      some [.submit 0x700 7 (rising 7 7)] := by decide
/-- V-O6. -/
theorem test_wpDlc8_submits :
    field State.events (exec (.wpDlc8 0 0x400 (rising 16 8)) (launch [.ok] [])) =
      some [.submit 0x400 8 (rising 16 8)] := by decide
/-- V-O3. -/
theorem test_wpDlc9_submits :
    field State.events (exec (.wpDlc9 0 0x123 (rising 1 12)) (launch [.ok] [])) =
      some [.submit 0x123 9 (rising 1 12)] := by decide
/-- V-O8. -/
theorem test_wpDlc10_submits :
    field State.events (exec (.wpDlc10 0 0x555 (rising 192 16)) (launch [.ok] [])) =
      some [.submit 0x555 10 (rising 192 16)] := by decide
/-- R75, R125. -/
theorem test_wpDlc11_submits :
    field State.events (exec (.wpDlc11 0 0x055 (rising 1 20)) (launch [.ok] [])) =
      some [.submit 0x055 11 (rising 1 20)] := by decide
/-- R75, R125. -/
theorem test_wpDlc12_submits :
    field State.events (exec (.wpDlc12 0 0x7FF (rising 1 24)) (launch [.ok] [])) =
      some [.submit 0x7FF 12 (rising 1 24)] := by decide
/-- V-H14, R125. -/
theorem test_wpDlc13_submits :
    field State.events (exec (.wpDlc13 0 0x001 (rising 1 32)) (launch [.ok] [])) =
      some [.submit 0x001 13 (rising 1 32)] := by decide
/-- R75, R125. -/
theorem test_wpDlc14_submits :
    field State.events (exec (.wpDlc14 1 0x100 (rising 1 48)) (launch [.ok] [])) =
      some [.submit 0x100 14 (rising 1 48)] := by decide
/-- V-O17's form. -/
theorem test_wpDlc15_submits :
    field State.events (exec (.wpDlc15 0 0x000 (rising 1 64)) (launch [.ok] [])) =
      some [.submit 0x000 15 (rising 1 64)] := by decide
/-- V-O12, V-O13: refused under `refuse`; refused for a short payload. -/
theorem test_wpDlc9_refused :
    refusal (exec (.wpDlc9 1 0x123 (rising 1 12))
      { launch [.ok] [] with cfg := { rsvd15 := .refuse, inCap := 66 } }) = some .reservedBitSet ∧
    refusal (exec (.wpDlc9 0 0x123 (rising 1 3)) (launch [.ok] [])) = some .shortPayload := by decide
/-- V-O16: the fault latch and the handler event. -/
theorem test_wpDlc2_submit_fault :
    field (fun t => (t.fault, t.events)) (exec (.wpDlc2 0 0x001 [0xDE, 0xAD]) (launch [.fault] [])) =
      some (.submit, [.submit 0x001 2 [0xDE, 0xAD], .faultHandler 1]) := by decide

/-! ### The pure operations -/

/-- V-L9. -/
theorem test_byteCount : field State.port (exec (.byteCount 9) State.reset) = some (.count 12) := by
  decide
/-- V-L16: the sum of the table. -/
theorem test_byteCount_sum :
    ((List.range 16).map fun k => (byteCount (BitVec.ofNat 4 k)).toNat).sum = 252 := by decide
/-- V-H4. -/
theorem test_packHeader : field State.port (exec (.packHeader 0x055 9) State.reset) =
    some (.header 0x4855) := by decide
/-- V-U11: the code is masked to four bits. -/
theorem test_unpackHeader : field State.port (exec (.unpackHeader 0xA555) State.reset) =
    some (.fields 0x555 4) := by decide
/-- V-U13. -/
theorem test_length_from_byte1 :
    [0x49, 0xC9, 0x07, 0x7F, 0x08].map lengthFromByte1 = [14, 14, 2, 66, 3] := by decide

/-! ### OUTBOUND -/

/-- V-O5: bytes above the packet are not used, and the latches (R121 to R124). -/
theorem test_outbound_surplus :
    field (fun t => (t.events, t.oHdr, Memory.readRange t.txb 0 2))
      (exec .outbound (waiting [0xFF, 0x08, 0x5A, 0x99, 0x98] (launch [.ok] []))) =
      some ([.submit 0x0FF 1 [0x5A]], 0x08FF, [0x5A, 0x00]) ∧
    field (fun t => (t.oId, t.oDlc, t.oN))
      (exec .outbound (waiting [0xFF, 0x08, 0x5A, 0x99, 0x98] (launch [.ok] []))) =
      some (0x0FF, 1, 1) := by decide
/-- V-O14, V-O15. -/
theorem test_outbound_short_header :
    refusal (exec .outbound (waiting [0x09] (launch [.ok] []))) = some .shortHeader ∧
    refusal (exec .outbound (waiting [] (launch [.ok] []))) = some .shortHeader := by decide

/-! ### INBOUND -/

/-- V-I4. -/
theorem test_inbound_sends :
    field State.events (exec .inbound (delivered 0x055 9 (List.replicate 12 0xAA) .ok)) =
      some [.transmit ([0x55, 0x48] ++ List.replicate 12 0xAA) 14, .toggle, .rearm] := by decide
/-- V-I15: the header is written, not OR-ed, over what an earlier frame left. -/
theorem test_inbound_overwrites_header :
    field State.events (exec .inbound { delivered 0x0FF 1 [0x5A] .ok with
      rxb := Memory.ofBytes [0x23, 0x49, 0x5A, 0x02] }) =
      some [.transmit [0xFF, 0x08, 0x5A] 3, .toggle, .rearm] := by decide
/-- V-I14, P7: no toggle and no rearm after a transmit fault. -/
theorem test_inbound_transmit_fault :
    field (fun t => (t.events, t.fault, t.rxArmed, t.diag))
      (exec .inbound (delivered 0x7FF 0 [] .fault)) =
      some ([.transmit [0xFF, 0x07] 2, .faultHandler 2], .transmit, false, false) := by decide

/-! ### Boundary operations -/

/-- V-C4: the event, and no change of the block's state. -/
theorem test_submit : field (fun t => (t.events, t.port, t.txb))
    (exec (.submit 0x001 2 [0xDE, 0xAD]) (launch [.ok] [])) =
      some ([.submit 0x001 2 [0xDE, 0xAD]], .answer .ok, []) := by decide
/-- V-C1: bytes 0 and 1 of RXB stay; the spill is the environment's. -/
theorem test_deliver :
    field (fun t => (t.iId, t.iDlc, t.rxArmed, t.rxTrigger, Memory.readRange t.rxb 0 5))
      (exec (.deliver 0x0FF 1 [0x5A]) { launch [] [] with
        rxb := Memory.ofBytes [0x11, 0x22, 0x33, 0x44, 0x55], spill := [0x99] }) =
      some (0x0FF, 1, false, true, [0x11, 0x22, 0x5A, 0x99, 0x55]) := by decide
/-- V-C2. -/
theorem test_deliver_unarmed :
    faultOf (exec (.deliver 0x0FF 1 [0x5A]) State.reset) = some .deliverNotArmed := by decide
/-- V-C3. -/
theorem test_rearm : field (fun t => (t.rxArmed, t.events)) (exec .rearm State.reset) =
    some (true, [.rearm]) := by decide
/-- V-C3. -/
theorem test_toggle : field (fun t => (t.diag, t.events)) (exec .toggle State.reset) =
    some (true, [.toggle]) := by decide
theorem test_transmit : field (fun t => (t.events, t.port))
    (exec (.transmit [0xFF, 0x07] 2) (launch [] [.fault])) =
      some ([.transmit [0xFF, 0x07] 2], .answer .fault) := by decide
theorem test_fault_handler :
    field (fun t => (t.events, t.oPhase, t.iPhase))
      (exec (.faultHandler 2) { State.reset with oPhase := .o3, iPhase := .i3 true }) =
      some ([.faultHandler 2], .o3, .idle) := by decide

/-! ### Steps -/

/-- A word placed as the next request is run by the very next step. -/
theorem test_step_runs_a_word :
    field State.events (step ((launch [.ok] []).withFetchWord 24 0x5A08FF)) =
      some [.submit 0x0FF 1 [0x5A]] := by decide
/-- The first step from reset with a word placed: no answer is listed, so the agent holds in O5 (R185). -/
theorem test_step_from_reset :
    field (fun t => (t.events, t.oPhase)) (step (State.reset.withFetchWord 16 0x0009)) =
      some ([.submit 0x009 0 []], .o5 true) := by decide
/-- V-F3: the delivered frame is served first. -/
theorem test_step_inbound_first :
    field (fun t => (t.events, t.hostSend))
      (step (waiting [0x09, 0x00] (delivered 0x100 1 [0xA5] .ok))) =
      some ([.transmit [0x00, 0x09, 0xA5] 3, .toggle, .rearm], true) := by decide
/-- V-F1: nothing starts after a fault. -/
theorem test_step_after_fault :
    field (fun t => (t.events, t.hostSend))
      (step { waiting [0x09, 0x00] (launch [.ok] [.ok]) with fault := .submit }) =
      some ([], true) := by decide
/-- P4: a delivery after a fault is taken, its trigger is dropped. -/
theorem test_step_deliver_after_fault :
    field (fun t => (t.iId, t.rxArmed, t.rxTrigger))
      (step { launch [] [] with
        fault := .submit, agenda := [.frame 0x055 0 [] []] }) = some (0x055, false, false) := by
  decide
/-- P5: OUTBOUND cut inside O4 by INBOUND, and taken up again with byte 3. -/
theorem test_step_preempted_copy :
    field (fun t => (t.events, t.oPhase))
      (step { waiting ([0x00, 0x44] ++ rising 0x10 8) (delivered 0x100 1 [0xA5] .ok) with
        oPhase := .o4 3, oHdr := 0x4400, oId := 0x400, oDlc := 8, oN := 8,
        txb := Memory.ofBytes [0x10, 0x11, 0x12] }) =
      some ([.transmit [0x00, 0x09, 0xA5] 3, .toggle, .rearm], .o4 3) ∧
    field State.events
      (step { waiting ([0x00, 0x44] ++ rising 0x10 8) (launch [.ok] []) with
        oPhase := .o4 3, oHdr := 0x4400, oId := 0x400, oDlc := 8, oN := 8,
        txb := Memory.ofBytes [0x10, 0x11, 0x12] }) =
      some [.submit 0x400 8 (rising 0x10 8)] := by decide

/-! ### Witnesses: for every statement with hypotheses, states and operands that meet them together -/

theorem witness_ByteCountTableProperties :
    (0 : DlcCode).toNat < (1 : DlcCode).toNat ∧ (14 : DlcCode).toNat < (15 : DlcCode).toNat ∧
    (15 : DlcCode).toNat ≤ (15 : DlcCode).toNat ∧ byteCount 15 = byteCount 15 ∧
    (8 : DlcCode).toNat ≤ 8 ∧ 9 ≤ (9 : DlcCode).toNat ∧ (9 : DlcCode).toNat ≤ 12 ∧
    9 ≤ (12 : DlcCode).toNat ∧ (12 : DlcCode).toNat ≤ 12 ∧ 13 ≤ (13 : DlcCode).toNat ∧
    13 ≤ (15 : DlcCode).toNat := by decide

theorem witness_PackAfterUnpack : packHeader 0x7FF 15 = packHeader 0x7FF 15 ∧
    packHeader 0x7FF 15 = 0x7FFF ∧ (0x7FFF : Header).toNat ≤ 0x7FFF ∧
    ¬ (0x8000 : Header).toNat ≤ 0x7FFF := by decide

theorem witness_DecodeOfEncode : (Instr.wpDlc0 1 0x7FF []).wellFormed = true ∧
    (Instr.wpDlc15 0 0x000 (rising 0 64)).wellFormed = true ∧
    (Instr.transmit (rising 0 66) 66).wellFormed = true ∧
    (Instr.faultHandler 2).wellFormed = true := by decide

theorem witness_RefusePolicyRejectsBit15 : ([] : List Byte).length = (byteCount 0).toNat ∧
    (rising 0 64).length = (byteCount 15).toNat ∧
    decode .hostSend .refuse (encode (.packet 1 0 0x0FF [0x5A])) = .ok (.wpDlc1 0 0x0FF [0x5A]) [] ∧
    decode .hostSend .refuse (encode (.packet 1 1 0x0FF [0x5A])) = .reject .reservedBitSet := by
  decide

theorem witness_EncodeOfDecode :
    decode .hostSend .refuse [0xFF, 0x08, 0x5A, 0x99] = .ok (.wpDlc1 0 0x0FF [0x5A]) [0x99] ∧
    decode .hostSend .ignore [0x00, 0x80] = .ok (.wpDlc0 1 0x000 []) [] := by decide

theorem witness_MaskSelectsTheForm :
    (0x80#8 ++ 0x00#8 : BitVec 16) &&& 0x7800#16 = (0 : DlcCode).setWidth 16 <<< 11 ∧
    (0x7F#8 ++ 0xFF#8 : BitVec 16) &&& 0xF800#16 = (15 : DlcCode).setWidth 16 <<< 11 ∧
    (0xFF#8 ++ 0xFF#8 : BitVec 16) &&& 0xF800#16 ≠ (15 : DlcCode).setWidth 16 <<< 11 ∧
    (byteCount 0).toNat ≤ ([] : List Byte).length ∧
    (byteCount 15).toNat ≤ (rising 0 64).length := by decide

theorem witness_LengthKnownFromSecondByte : ([] : List Byte).length = (byteCount 0).toNat ∧
    (rising 0 64).length = (byteCount 15).toNat := by decide

/-- A packet and OUTBOUND itself, with the shortest and the longest request; the second under `refuse`. -/
theorem witness_OutboundCompletes :
    (IsOutboundOf (.wpDlc0 0 0x009 []) (launch [.ok] []) [0x09, 0x00] ∧
      (launch [.ok] []).fault = .none ∧ (launch [.ok] []).oPhase = .idle ∧
      MeetsContract (launch [.ok] []).cfg.rsvd15 [0x09, 0x00] ∧
      Memory.wf (launch [.ok] []).txb = true ∧ (launch [.ok] []).submitReplies = [.ok]) ∧
    (IsOutboundOf .outbound (waiting (rising 0x78 66) (launch [.ok] [])) (rising 0x78 66) ∧
      MeetsContract .refuse (rising 0x78 66)) :=
  ⟨⟨.inr ⟨0, 0, 0x009, [], rfl, rfl⟩, rfl, rfl, ⟨by decide, by decide⟩, rfl, rfl⟩,
    ⟨.inl ⟨rfl, by decide⟩, ⟨by decide, by decide⟩⟩⟩

theorem witness_OutboundSubmitFault :
    IsOutboundOf (.wpDlc2 0 0x001 [0xDE, 0xAD]) (launch [.fault] []) [0x01, 0x10, 0xDE, 0xAD] ∧
    (launch [.fault] []).fault = .none ∧ (launch [.fault] []).oPhase = .idle ∧
    MeetsContract (launch [.fault] []).cfg.rsvd15 [0x01, 0x10, 0xDE, 0xAD] ∧
    Memory.wf (launch [.fault] []).txb = true ∧ (launch [.fault] []).submitReplies = [.fault] :=
  ⟨.inr ⟨2, 0, 0x001, [0xDE, 0xAD], rfl, rfl⟩, rfl, rfl, ⟨by decide, by decide⟩, rfl, rfl⟩

theorem witness_OutboundHoldsInO5 :
    (IsOutboundOf (.wpDlc1 0 0x0FF [0x5A]) (launch [] []) [0xFF, 0x08, 0x5A] ∧
      (launch [] []).fault = .none ∧ (launch [] []).oPhase = .idle ∧
      MeetsContract (launch [] []).cfg.rsvd15 [0xFF, 0x08, 0x5A] ∧
      Memory.wf (launch [] []).txb = true ∧ (launch [] []).submitReplies = []) ∧
    (IsOutboundOf (.wpDlc1 0 0x0FF [0x5A]) (launch [.wait, .ok] []) [0xFF, 0x08, 0x5A] ∧
      (launch [.wait, .ok] []).submitReplies = [.wait, .ok]) :=
  ⟨⟨.inr ⟨1, 0, 0x0FF, [0x5A], rfl, rfl⟩, rfl, rfl, ⟨by decide, by decide⟩, rfl, rfl⟩,
    ⟨.inr ⟨1, 0, 0x0FF, [0x5A], rfl, rfl⟩, rfl⟩⟩

/-- An outbound agent that holds in O5, with the given answers to come. -/
def holdingO5 (answers : List Reply) : State := { launch answers [] with oPhase := .o5 true }

theorem witness_HeldSubmitIsAnswered : (holdingO5 [.ok]).agenda = [] ∧
    (holdingO5 [.ok]).fault = .none ∧ (holdingO5 [.ok]).iPhase = .idle ∧
    (holdingO5 [.ok]).rxTrigger = false ∧ (holdingO5 [.ok]).oPhase = .o5 true ∧
    (holdingO5 [.ok]).submitReplies = [.ok] ∧ (holdingO5 [.fault]).submitReplies = [.fault] ∧
    (holdingO5 [.wait]).submitReplies = [.wait] ∧ (holdingO5 []).submitReplies = [] := by decide

/-- One byte too few for the header; one too few for the payload; bit 15 under `refuse`. -/
theorem witness_OutboundRefusesBrokenRequests :
    IsOutboundOf .outbound (waiting [0x09] (launch [.ok] [])) [0x09] ∧
    ¬ MeetsContract .ignore [0x09] ∧ ¬ MeetsContract .ignore [0xFF, 0x08] ∧
    ¬ MeetsContract .refuse [0x09, 0x80] ∧ (waiting [0x09] (launch [.ok] [])).fault = .none ∧
    (waiting [0x09] (launch [.ok] [])).oPhase = .idle :=
  ⟨.inl ⟨rfl, by decide⟩, fun h => absurd h.1 (by decide), fun h => absurd h.1 (by decide),
    fun h => absurd (h.2 rfl) (by decide), rfl, rfl⟩

theorem witness_OutboundNotStarted :
    IsOutboundOf (.wpDlc0 0 0x009 []) { launch [] [] with fault := .submit } [0x09, 0x00] ∧
    ({ launch [] [] with fault := .submit } : State).fault ≠ .none ∧
    IsOutboundOf (.wpDlc0 0 0x009 []) (holdingO5 []) [0x09, 0x00] ∧
    (holdingO5 []).oPhase ≠ .idle :=
  ⟨.inr ⟨0, 0, 0x009, [], rfl, rfl⟩, by decide, .inr ⟨0, 0, 0x009, [], rfl, rfl⟩, by decide⟩

/-- A packet that overwrites one byte of a TXB that held three; offsets below and above `n = 1`. -/
theorem witness_OutboundCopiesExactlyN :
    IsOutboundOf (.wpDlc1 0 0x0FF [0x5A])
      { launch [.ok] [] with txb := Memory.ofBytes [0x01, 0x02, 0x03] } [0xFF, 0x08, 0x5A] ∧
    Memory.wf (Memory.ofBytes [0x01, 0x02, 0x03]) = true ∧
    (∃ t, exec (.wpDlc1 0 0x0FF [0x5A])
      { launch [.ok] [] with txb := Memory.ofBytes [0x01, 0x02, 0x03] } = .next t) ∧
    payloadLen [0xFF, 0x08, 0x5A] = 1 :=
  ⟨.inr ⟨1, 0, 0x0FF, [0x5A], rfl, rfl⟩, by decide, ⟨_, rfl⟩, by decide⟩

theorem witness_OutboundFrame :
    IsOutboundOf .outbound (waiting [0x09, 0x00] (launch [.ok] [])) [0x09, 0x00] ∧
    (∃ t, exec .outbound (waiting [0x09, 0x00] (launch [.ok] [])) = .next t) ∧
    Memory.wf (waiting [0x09, 0x00] (launch [.ok] [])).txb = true ∧
    payloadLen [0x09, 0x00] ≤ 0 :=
  ⟨.inl ⟨rfl, by decide⟩, ⟨_, rfl⟩, rfl, by decide⟩

/-- The same packet with different bytes above it (V-O4, V-O5). -/
theorem witness_OutboundReadsOnlyItsPacket :
    2 + payloadLen (waiting [0xFF, 0x08, 0x5A] (launch [.ok] [])).request ≤
      (waiting [0xFF, 0x08, 0x5A] (launch [.ok] [])).inLen ∧
    2 + payloadLen (waiting [0xFF, 0x08, 0x5A] (launch [.ok] [])).request ≤ 5 ∧
    (∀ k, k < 2 + payloadLen (waiting [0xFF, 0x08, 0x5A] (launch [.ok] [])).request →
      Memory.read (Memory.ofBytes [0xFF, 0x08, 0x5A, 0x99, 0x98]) k =
        Memory.read (waiting [0xFF, 0x08, 0x5A] (launch [.ok] [])).inb k) ∧
    MeetsContract .ignore (waiting [0xFF, 0x08, 0x5A] (launch [.ok] [])).request ∧
    (∃ t, exec .outbound (waiting [0xFF, 0x08, 0x5A] (launch [.ok] [])) = .next t) ∧
    exec .outbound { waiting [0x09, 0x80] (launch [.ok] []) with
      cfg := { rsvd15 := .refuse, inCap := 66 } } = .refused .reservedBitSet ∧
    2 + payloadLen (waiting [0x09, 0x80] (launch [.ok] [])).request ≤ 2 :=
  ⟨by decide, by decide, by decide, ⟨by decide, by decide⟩, ⟨_, rfl⟩, rfl, by decide⟩

theorem witness_OutboundIgnoresStaleTxb :
    IsOutboundOf (.wpDlc1 0 0x0FF [0x5A]) (launch [.ok] []) [0xFF, 0x08, 0x5A] ∧
    Memory.wf (launch [.ok] []).txb = true ∧
    Memory.wf (Memory.ofBytes [0x01, 0x02, 0x03]) = true ∧
    ∃ t, exec (.wpDlc1 0 0x0FF [0x5A]) (launch [.ok] []) = .next t :=
  ⟨.inr ⟨1, 0, 0x0FF, [0x5A], rfl, rfl⟩, rfl, by decide, ⟨_, rfl⟩⟩

theorem witness_HeaderBit15IsIgnored : (launch [.ok] []).cfg.rsvd15 = .ignore ∧
    ∃ t, exec (.packet 1 0 0x0FF [0x5A]) (launch [.ok] []) = .next t := ⟨rfl, _, rfl⟩

/-- RXB that held an earlier header and payload; offsets 0, 1 and 2 are where the clauses meet. -/
theorem witness_InboundComposesTheHeader :
    Memory.wf (Memory.ofBytes [0x23, 0x49, 0x5A]) = true ∧
    Memory.readRange (phaseI1a { delivered 0x0FF 1 [0x5A] .ok with
      rxb := Memory.ofBytes [0x23, 0x49, 0x5A] }).rxb 0 3 = [0xFF, 0x00, 0x5A] := by decide

theorem witness_InboundCompletes : (delivered 0x055 9 (rising 1 12) .ok).fault = .none ∧
    (delivered 0x055 9 (rising 1 12) .ok).iPhase = .idle ∧
    Memory.wf (delivered 0x055 9 (rising 1 12) .ok).rxb = true ∧
    (delivered 0x055 9 (rising 1 12) .ok).transmitReplies = [.ok] := by decide

theorem witness_InboundTransmitFault : (delivered 0x7FF 0 [] .fault).fault = .none ∧
    (delivered 0x7FF 0 [] .fault).iPhase = .idle ∧
    Memory.wf (delivered 0x7FF 0 [] .fault).rxb = true ∧
    (delivered 0x7FF 0 [] .fault).transmitReplies = [.fault] := by decide

theorem witness_InboundHoldsInI3 : (delivered 0x7FF 0 [] .wait).fault = .none ∧
    (delivered 0x7FF 0 [] .wait).iPhase = .idle ∧
    Memory.wf (delivered 0x7FF 0 [] .wait).rxb = true ∧
    (delivered 0x7FF 0 [] .wait).transmitReplies = [.wait] ∧
    ({ delivered 0x7FF 0 [] .wait with transmitReplies := [] } : State).transmitReplies = [] := by
  decide

/-- An inbound agent that holds in I3, with the given answers to come. -/
def holdingI3 (answers : List Reply) : State :=
  { launch [] answers with iPhase := .i3 true, rxArmed := false }

theorem witness_HeldTransmitIsAnswered : (holdingI3 [.ok]).agenda = [] ∧
    (holdingI3 [.ok]).fault = .none ∧ (holdingI3 [.ok]).iPhase = .i3 true ∧
    (holdingI3 [.ok]).transmitReplies = [.ok] ∧ (holdingI3 [.fault]).transmitReplies = [.fault] ∧
    (holdingI3 [.wait]).transmitReplies = [.wait] ∧ (holdingI3 []).transmitReplies = [] := by decide

theorem witness_InboundNotStarted :
    ({ delivered 0x055 0 [] .ok with fault := .submit } : State).fault ≠ .none ∧
    (holdingI3 []).iPhase ≠ .idle := by decide

theorem witness_InboundFrame :
    (∃ t, exec .inbound (delivered 0x0FF 1 [0x5A] .ok) = .next t) ∧
    Memory.wf (delivered 0x0FF 1 [0x5A] .ok).rxb = true := ⟨⟨_, rfl⟩, by decide⟩

theorem witness_InboundSendsTheDeliveredFrame :
    Memory.wf (launch [] [.ok]).rxb = true ∧ (launch [] [.ok]).fault = .none ∧
    (launch [] [.ok]).iPhase = .idle ∧
    ∃ t u, exec (.deliver 0x0FF 1 [0x5A]) (launch [] [.ok]) = .next t ∧
      exec .inbound t = .next u := ⟨rfl, rfl, rfl, _, _, rfl, rfl⟩

/-- The shortest and the longest payload; offsets where the clauses meet are 66 and 2 + n. -/
theorem witness_DeliverCompletes : (launch [] []).rxArmed = true ∧
    ([] : List Byte).length = (byteCount 0).toNat ∧
    (rising 0 64).length = (byteCount 15).toNat ∧ Memory.wf (launch [] []).rxb = true ∧
    0 < 64 - (byteCount 0).toNat ∧ ¬ 0 < 64 - (byteCount 15).toNat := by decide

theorem witness_CallsComplete : [0xDE#8, 0xAD#8].length = (byteCount 2).toNat ∧
    (2 : Count) = packetLength 0 ∧ [0xFF#8, 0x07#8].length = (2 : Count).toNat ∧
    (66 : Count) = packetLength 15 ∧ (rising 0 66).length = (66 : Count).toNat := by decide

theorem witness_BoundaryOperationsStop : [0x5A#8].length = (byteCount 1).toNat ∧
    State.reset.rxArmed = false ∧ [0x5A#8].length ≠ (byteCount 2).toNat ∧
    (∀ d : DlcCode, (1 : Count) ≠ packetLength d) ∧ (∀ d : DlcCode, (11 : Count) ≠ packetLength d) ∧
    (∀ d : DlcCode, (67 : Count) ≠ packetLength d) ∧ [0x00#8].length ≠ (2 : Count).toNat := by decide

/-- A waiting request in an idle block. -/
def idleWith (req : List Byte) : State := waiting req (launch [.ok] [])

theorem witness_StepRunsTheDecodedPacket : (idleWith [0xFF, 0x08, 0x5A]).agenda = [] ∧
    (idleWith [0xFF, 0x08, 0x5A]).fault = .none ∧ (idleWith [0xFF, 0x08, 0x5A]).iPhase = .idle ∧
    (idleWith [0xFF, 0x08, 0x5A]).rxTrigger = false ∧
    (idleWith [0xFF, 0x08, 0x5A]).oPhase = .idle ∧
    (idleWith [0xFF, 0x08, 0x5A]).hostSend = true ∧
    decode .hostSend (idleWith [0xFF, 0x08, 0x5A]).cfg.rsvd15 (idleWith [0xFF, 0x08, 0x5A]).request =
      .ok (.wpDlc1 0 0x0FF [0x5A]) [] := by decide

theorem witness_FetchedPacketIsOutbound : Memory.wf (idleWith [0xFF, 0x08, 0x5A, 0x99]).txb = true ∧
    decode .hostSend (idleWith [0xFF, 0x08, 0x5A, 0x99]).cfg.rsvd15
      (idleWith [0xFF, 0x08, 0x5A, 0x99]).request = .ok (.wpDlc1 0 0x0FF [0x5A]) [0x99] := by decide

theorem witness_StepRefusesBrokenRequests : (idleWith [0xFF, 0x08]).agenda = [] ∧
    (idleWith [0xFF, 0x08]).fault = .none ∧ (idleWith [0xFF, 0x08]).iPhase = .idle ∧
    (idleWith [0xFF, 0x08]).rxTrigger = false ∧ (idleWith [0xFF, 0x08]).oPhase = .idle ∧
    (idleWith [0xFF, 0x08]).hostSend = true ∧
    ¬ MeetsContract (idleWith [0xFF, 0x08]).cfg.rsvd15 (idleWith [0xFF, 0x08]).request :=
  ⟨rfl, rfl, rfl, rfl, rfl, rfl, fun h => absurd h.1 (by decide)⟩

/-- A delivered frame while an OUTBOUND is inside O4. -/
theorem witness_StepServesInboundFirst :
    ({ delivered 0x100 1 [0xA5] .ok with oPhase := .o4 3 } : State).agenda = [] ∧
    (delivered 0x100 1 [0xA5] .ok).fault = .none ∧
    (delivered 0x100 1 [0xA5] .ok).iPhase = .idle ∧
    (delivered 0x100 1 [0xA5] .ok).rxTrigger = true := by decide

theorem witness_StepDelivers :
    ({ launch [] [] with agenda := [.frame 0x0FF 1 [0x5A] []] } : State).rxArmed = true ∧
    ({ State.reset with agenda := [.frame 0x0FF 1 [0x5A] []] } : State).rxArmed = false ∧
    ({ launch [] [] with agenda := [.frame 0x0FF 1 [0x5A] []] } : State).agenda =
      .frame 0x0FF 1 [0x5A] [] :: [] := by decide

/-- A request of exactly `IN_CAP` bytes; a waiting request; a busy agent. -/
theorem witness_StepPresentsRequest :
    ({ launch [] [] with agenda := [.request (rising 0 66)] } : State).agenda =
      .request (rising 0 66) :: [] ∧
    (launch [] []).oPhase = .idle ∧ (launch [] []).hostSend = false ∧
    (rising 0 66).length ≤ (launch [] []).cfg.inCap ∧
    (idleWith [0x09, 0x00]).hostSend = true ∧ (holdingO5 []).oPhase ≠ .idle := by decide

/-- Values for what a reset leaves unspecified. -/
def anyValues : Unspecified :=
  { txb := [0x01], rxb := [0x02], oHdr := 3, oId := 4, oDlc := 5, oN := 6, iId := 7, iDlc := 8,
    iN := 9, iLen := 10, diag := true }

theorem witness_StepResets :
    ({ launch [] [] with fault := .submit, agenda := [.reset anyValues] } : State).agenda =
      .reset anyValues :: [] := by decide

theorem witness_FaultedBlockStandsStill :
    (idleWith [0x09, 0x00]).agenda = [] ∧
    ({ idleWith [0x09, 0x00] with fault := .submit } : State).fault ≠ .none ∧
    ∃ t, step { idleWith [0x09, 0x00] with fault := .submit } = .next t :=
  ⟨rfl, by decide, _, rfl⟩

/-- A step for each of the three outcomes: nothing about faults, a fault taken, a reset. -/
theorem witness_FaultLatchAndHandlerAgree :
    (∃ t, step (idleWith [0x09, 0x00]) = .next t ∧ t.fault = .none) ∧
    (∃ t, step (holdingO5 [.fault]) = .next t ∧ t.fault = .submit) ∧
    (∃ t, step { holdingO5 [] with fault := .submit, agenda := [.reset anyValues] } = .next t ∧
      t.fault = .none) := ⟨⟨_, rfl, rfl⟩, ⟨_, rfl, rfl⟩, ⟨_, rfl, rfl⟩⟩

theorem witness_ParametersNeverChange :
    (∃ t, exec (.wpDlc0 0 0x009 []) (launch [.ok] []) = .next t) ∧
    (∃ t, step (idleWith [0x09, 0x00]) = .next t) := ⟨⟨_, rfl⟩, ⟨_, rfl⟩⟩

/-- The launch state meets the invariant, whatever the answers. -/
theorem launch_consistent (a b : List Reply) : (launch a b).Consistent where
  buffers := ⟨rfl, rfl, rfl, rfl, rfl, rfl, by simp [launch, State.reset]⟩
  outbound := trivial
  inbound := trivial
  oneFrame := by simp [State.OneFrame, launch, State.reset]
  canonical := by simp [launch, State.reset]

/-- So does a state with a frame in the block and another one waiting outside. -/
theorem delivered_consistent :
    ({ delivered 0x0FF 1 [0x5A] .ok with
      agenda := [.frame 0x100 1 [0xA5] []] } : State).Consistent where
  buffers := ⟨rfl, by decide, rfl, rfl, by decide, rfl,
    by simp [delivered, launch, State.reset]⟩
  outbound := trivial
  inbound := trivial
  oneFrame := by simp [State.OneFrame, delivered, launch, State.reset]
  canonical := by simp [delivered, launch, State.reset]

theorem witness_StepKeepsConsistent : (launch [.ok] [.ok]).Consistent ∧
    ∃ t, step (launch [.ok] [.ok]) = .next t := ⟨launch_consistent _ _, _, rfl⟩

theorem witness_ConsistentStepsNeverFault : (launch [.ok] [.ok]).Consistent :=
  launch_consistent _ _

theorem witness_FrameInFlightIsStable :
    ({ delivered 0x0FF 1 [0x5A] .ok with
      agenda := [.frame 0x100 1 [0xA5] []] } : State).Consistent ∧
    (delivered 0x0FF 1 [0x5A] .ok).rxTrigger = true := ⟨delivered_consistent, rfl⟩

theorem witness_OutboundPhasesMakeTheWhole :
    (∀ c, (startOutbound (idleWith [0x09, 0x00])).oPhase ≠ .o5 c) ∧
    (∀ c, ({ launch [] [] with oPhase := .o4 3 } : State).oPhase ≠ .o5 c) := by
  constructor <;> decide

theorem witness_InboundPhasesMakeTheWhole :
    (∀ c, (startInbound (delivered 0x0FF 1 [0x5A] .ok)).iPhase ≠ .i3 c) ∧
    (∃ r rs, (holdingI3 [.ok]).transmitReplies = r :: rs ∧ r ≠ .wait) :=
  ⟨by decide, .ok, [], rfl, by decide⟩

/-- A delivered frame, a waiting request, and answers for both. -/
def bothWaiting : State := waiting [0xFF, 0x08, 0x5A] { delivered 0x100 1 [0xA5] .ok with
  submitReplies := [.ok] }

theorem witness_InboundCommutesWithOutboundPhase :
    (∀ c, (startOutbound bothWaiting).oPhase ≠ .o5 c) ∧
    (∃ s1, outboundPhase bothWaiting.request (startOutbound bothWaiting) = .next s1) ∧
    (∃ s2, exec .inbound (startOutbound bothWaiting) = .next s2) := by
  refine ⟨by decide, ⟨_, rfl⟩, ⟨_, rfl⟩⟩

/-- Preempted before the first phase and between the two copies of O4. -/
theorem witness_PreemptionEqualsAtomicOrder :
    bothWaiting.fault = .none ∧ bothWaiting.oPhase = .idle ∧ bothWaiting.iPhase = .idle ∧
    (∃ u, exec .inbound bothWaiting = .next u ∧ u.fault = .none ∧ u.iPhase = .idle) ∧
    (∃ v, outboundPhases 0 bothWaiting.request (startOutbound bothWaiting) = .next v ∧
      v.oPhase ≠ .idle ∧ ∀ c, v.oPhase ≠ .o5 c) ∧
    (∃ v, outboundPhases 4 bothWaiting.request (startOutbound bothWaiting) = .next v ∧
      v.oPhase = .o4 1) :=
  ⟨rfl, rfl, rfl, ⟨_, rfl, rfl, rfl⟩, ⟨_, rfl, by decide, by decide⟩, ⟨_, rfl, by decide⟩⟩

theorem witness_SerializeAndDeserializeAreInverse : [0x5A#8].length = (byteCount 1).toNat ∧
    2 + payloadLen [0xFF, 0x88, 0x5A, 0x99] ≤ [0xFF#8, 0x88#8, 0x5A#8, 0x99#8].length := by decide

theorem witness_LoopbackReturnsTheFrame : (launch [.ok] [.ok]).Consistent ∧
    (launch [.ok] [.ok]).fault = .none ∧ (launch [.ok] [.ok]).iPhase = .idle ∧
    (launch [.ok] [.ok]).oPhase = .idle ∧ (launch [.ok] [.ok]).rxArmed = true ∧
    66 ≤ (launch [.ok] [.ok]).cfg.inCap ∧ (rising 1 5).length = (byteCount 5).toNat ∧
    (launch [.ok] [.ok]).transmitReplies = [.ok] ∧ (launch [.ok] [.ok]).submitReplies = [.ok] :=
  ⟨launch_consistent _ _, rfl, rfl, rfl, rfl, by decide, by decide, rfl, rfl⟩

end Sys2Proof.Tests
end

/-! SUPPORT. Once and for all, what a step that answers a next state has done. -/

namespace Sys2Proof.Machine

/-! ### The two sides of the block -/

/-- `s` with the outbound side of `o`: TXB, the outbound latches and phase, and the host-send trigger. -/
@[simps] def State.withOutbound (s o : State) : State :=
  { s with
    txb := o.txb
    oHdr := o.oHdr
    oId := o.oId
    oDlc := o.oDlc
    oN := o.oN
    oPhase := o.oPhase
    hostSend := o.hostSend }

/-- `s` with what I1a to I2 may write of `i`: RXB, `i.n`, `i.len`, the phase and the trigger. -/
def State.withInbound (s i : State) : State :=
  { s with
    rxb := i.rxb
    iN := i.iN
    iLen := i.iLen
    iPhase := i.iPhase
    rxTrigger := i.rxTrigger }

/-- An OUTBOUND, or a part of one, either writes the outbound side alone, or does so and then settles a
call of `submit`. -/
inductive OutboundRun (s t : State) : Prop where
  | writes (h : t = s.withOutbound t)
  | calls {u : State} {called : Bool} (hu : u = s.withOutbound u)
      (h : phaseO5 called u = .next t)

/-- An INBOUND, or a part of one, either writes the inbound side alone, or does so and then settles a call of
`transmit`, with what follows an `ok`, or is I4, I5 or both. -/
inductive InboundRun (s t : State) : Prop where
  | writes (h : t = s.withInbound t)
  | calls {u : State} {called : Bool} (hu : u = s.withInbound u)
      (h : phaseI3 called u = .next t ∨ finishI3 called u = .next t)
  | ends (h : t = phaseI4 s ∨ t = phaseI5 s ∨ t = phaseI5 (phaseI4 s))

/-! ### The calls -/

/-- O5 settles a look for the answer, or a call. -/
theorem phaseO5_eq_next {called : Bool} {s t : State} (h : phaseO5 called s = .next t) :
    t = settleSubmit (takeSubmitReply s) ∨
    t = settleSubmit (callSubmit s.oId s.oDlc (Memory.readRange s.txb 0 s.oN.toNat) s) := by
  simp only [phaseO5] at h
  split_ifs at h <;> cases h
  · exact .inl rfl
  · exact .inr rfl

/-- I3 settles a look for the answer, or a call. -/
theorem phaseI3_eq_next {called : Bool} {s t : State} (h : phaseI3 called s = .next t) :
    t = settleTransmit (takeTransmitReply s) ∨
    t = settleTransmit (callTransmit (Memory.readRange s.rxb 0 s.iLen.toNat) s.iLen s) := by
  simp only [phaseI3] at h
  split_ifs at h <;> cases h
  · exact .inl rfl
  · exact .inr rfl

/-- After `transmit` come I4 and I5, or nothing. -/
theorem afterTransmit_eq_next {s t : State} (h : afterTransmit s = .next t) :
    (s.iPhase = .i4 ∧ t = phaseI5 (phaseI4 s)) ∨ (s.iPhase ≠ .i4 ∧ t = s) := by
  simp only [afterTransmit] at h
  split at h <;> cases h
  case h_1 h4 => exact .inl ⟨h4, rfl⟩
  case h_2 h4 => exact .inr ⟨h4, rfl⟩

/-! ### Parts of an operation -/

theorem OutboundRun.of_writes {s u t : State} (hu : u = s.withOutbound u) (h : OutboundRun u t) :
    OutboundRun s t := by
  cases h with
  | writes h => exact .writes (by rw [h, hu]; rfl)
  | calls hv h => exact .calls (by rw [hv, hu]; rfl) h

theorem finishO4_run {req : List Byte} {k : Nat} {s t : State} (h : finishO4 req k s = .next t) :
    OutboundRun s t := by
  obtain ⟨u, hu, h5⟩ := andThen_eq_next.mp h
  simp only [phaseO4] at hu
  split at hu <;> cases hu
  exact .calls rfl h5

theorem finishO3_run {req : List Byte} {s t : State} (h : finishO3 req s = .next t) :
    OutboundRun s t := by
  obtain ⟨u, hu, h4⟩ := andThen_eq_next.mp h
  simp only [phaseO3] at hu
  split at hu <;> cases hu
  exact (finishO4_run h4).of_writes rfl

theorem finishO2_run {req : List Byte} {s t : State} (h : finishO2 req s = .next t) :
    OutboundRun s t :=
  (finishO3_run h).of_writes rfl

theorem finishO1_run {req : List Byte} {s t : State} (h : finishO1 req s = .next t) :
    OutboundRun s t := by
  obtain ⟨u, hu, h2⟩ := andThen_eq_next.mp h
  simp only [phaseO1] at hu
  split_ifs at hu
  cases hu
  exact (finishO2_run h2).of_writes rfl

theorem resumeOutbound_run {req : List Byte} {s t : State} (h : resumeOutbound req s = .next t) :
    OutboundRun s t := by
  simp only [resumeOutbound] at h
  split at h
  · cases h
    exact .writes rfl
  · exact finishO1_run h
  · exact finishO2_run h
  · exact finishO3_run h
  · exact finishO4_run h
  · exact .calls rfl h

theorem outboundOf_run {req : List Byte} {s t : State} (h : outboundOf req s = .next t) :
    OutboundRun s t := by
  simp only [outboundOf] at h
  split at h
  · exact (finishO1_run h).of_writes rfl
  · cases h
    exact .writes rfl

/-- A phase before O5 reads the parameters and the outbound side, and writes the outbound side, whatever the
rest of the state is. -/
theorem outboundPhase_withOutbound {req : List Byte} {s : State} (r : State)
    (h5 : ∀ c, s.oPhase ≠ .o5 c) (hcfg : r.cfg = s.cfg) :
    outboundPhase req (r.withOutbound s) =
      andThen (outboundPhase req s) fun t => .next (r.withOutbound t) := by
  simp only [outboundPhase, State.withOutbound_oPhase]
  split
  · rfl
  · simp only [phaseO1, State.withOutbound_cfg, hcfg]
    split_ifs
    · rfl
    · rfl
    · simp [State.withOutbound, hcfg]
  · rfl
  · simp only [phaseO3, State.withOutbound_oDlc]
    split_ifs <;> rfl
  · simp only [copyStep, copyInBounds, State.withOutbound_oN]
    split_ifs <;> rfl
  · rename_i c hc
    exact absurd hc (h5 c)

/-- A phase before O5 leaves everything but the outbound side as it was. -/
theorem outboundPhase_writes {req : List Byte} {s t : State} (h5 : ∀ c, s.oPhase ≠ .o5 c)
    (h : outboundPhase req s = .next t) : t = s.withOutbound t := by
  have heq := outboundPhase_withOutbound (req := req) s h5 rfl
  rw [show s.withOutbound s = s from rfl, h] at heq
  exact Host.Outcome.next.inj heq

theorem outboundPhase_run {req : List Byte} {s t : State} (h : outboundPhase req s = .next t) :
    OutboundRun s t := by
  by_cases h5 : ∃ c, s.oPhase = .o5 c
  · obtain ⟨c, hc⟩ := h5
    simp only [outboundPhase, hc] at h
    exact .calls rfl h
  · exact .writes (outboundPhase_writes (fun c hc => h5 ⟨c, hc⟩) h)

theorem resumeInbound_run {s t : State} (h : resumeInbound s = .next t) : InboundRun s t := by
  simp only [resumeInbound] at h
  split at h
  · cases h
    exact .writes rfl
  · exact .calls rfl (.inr h)
  · exact .calls rfl (.inr h)
  · exact .calls rfl (.inr h)
  · exact .calls rfl (.inr h)
  · cases h
    exact .ends (.inr (.inr rfl))
  · cases h
    exact .ends (.inr (.inl rfl))

theorem inboundPhase_run {s t : State} (h : inboundPhase s = .next t) : InboundRun s t := by
  simp only [inboundPhase] at h
  split at h
  · cases h
    exact .writes rfl
  · cases h
    exact .writes rfl
  · cases h
    exact .writes rfl
  · cases h
    exact .writes rfl
  · exact .calls rfl (.inl h)
  · cases h
    exact .ends (.inl rfl)
  · cases h
    exact .ends (.inr (.inl rfl))

theorem execInbound_run {s t : State} (h : execInbound s = .next t) : InboundRun s t := by
  simp only [execInbound] at h
  split at h
  · exact .calls (u := phaseI2 (phaseI1b (phaseI1a (startInbound s)))) rfl (.inr h)
  · cases h
    exact .writes rfl

/-! ### The moves of the block -/

/-- What the block does when it does something: a phase, the rest of an operation, or a whole one. An
OUTBOUND that is fetched is one of a request no longer than IN_LEN. -/
inductive BlockMove (s t : State) : Prop where
  | startsOutbound (h : t = startOutbound s)
  | phasesOutbound (h : outboundPhase s.request s = .next t)
  | resumesOutbound (h : resumeOutbound s.request s = .next t)
  | runsOutbound {req : List Byte} (hlen : req.length ≤ s.inLen) (h : outboundOf req s = .next t)
  | startsInbound (hrx : s.rxTrigger = true) (h : t = startInbound s)
  | phasesInbound (h : inboundPhase s = .next t)
  | resumesInbound (h : resumeInbound s = .next t)
  | runsInbound (hrx : s.rxTrigger = true) (h : execInbound s = .next t)

/-- The fetch is an OUTBOUND of the packet at the start of the request. -/
theorem fetchAndExec_eq_next {s t : State} (h : fetchAndExec s = .next t) :
    ∃ req : List Byte, req.length ≤ s.inLen ∧ outboundOf req s = .next t := by
  simp only [fetchAndExec] at h
  split at h
  case h_2 => cases h
  case h_1 i rest hdec =>
    have hp := passes_of_decodePacket hdec
    rw [decodePacket_passes hp, Decoded.ok.injEq] at hdec
    obtain ⟨rfl, -⟩ := hdec
    rw [exec_packet, packetBytes_of_request (by have := hp.2; omega)] at h
    exact ⟨_, by simp, h⟩

theorem runOperation_eq_next {s t : State} (h : runOperation s = .next t) :
    t = s ∨ s.fault = .none ∧ BlockMove s t := by
  by_cases hw : s.work = .nothing
  · simp only [runOperation, hw] at h
    cases h
    exact .inl rfl
  · refine .inr ⟨fault_of_work hw, ?_⟩
    simp only [runOperation] at h
    split at h
    case h_1 hn => exact absurd hn hw
    case h_2 => exact .resumesInbound h
    case h_3 hs => exact .runsInbound (rxTrigger_of_work hs).1 h
    case h_4 => exact .resumesOutbound h
    case h_5 =>
      obtain ⟨req, hlen, h⟩ := fetchAndExec_eq_next h
      exact .runsOutbound hlen h

theorem runPhase_eq_next {s t : State} (h : runPhase s = .next t) :
    t = s ∨ s.fault = .none ∧ BlockMove s t := by
  by_cases hw : s.work = .nothing
  · simp only [runPhase, hw] at h
    cases h
    exact .inl rfl
  · refine .inr ⟨fault_of_work hw, ?_⟩
    simp only [runPhase] at h
    split at h
    case h_1 hn => exact absurd hn hw
    case h_2 => exact .phasesInbound h
    case h_3 hs => exact .startsInbound (rxTrigger_of_work hs).1 (Host.Outcome.next.inj h).symm
    case h_4 => exact .phasesOutbound h
    case h_5 => exact .startsOutbound (Host.Outcome.next.inj h).symm

/-- Everything a step can do when it answers a next state; `rest` is the agenda it leaves. -/
inductive StepMove (s t : State) : Prop where
  | nothing (rest : List Stimulus) (h : t = { s with agenda := rest })
  | block (rest : List Stimulus) (hf : s.fault = .none) (h : BlockMove { s with agenda := rest } t)
  | presents (rest : List Stimulus) (bytes : List Byte) (hidle : s.oPhase = .idle)
      (hcap : bytes.length ≤ s.cfg.inCap)
      (h : t = { s with
        agenda := rest
        inb := Memory.ofBytes bytes
        inLen := bytes.length
        hostSend := true })
  | delivers (rest : List Stimulus) (id : Ident) (d : DlcCode) (p spill : List Byte)
      (harmed : s.rxArmed = true) (hlen : p.length = (byteCount d).toNat)
      (h : t = { s with
        agenda := rest
        iId := id
        iDlc := d
        rxb := deliverBytes d p spill s.rxb
        spill := []
        rxArmed := false
        rxTrigger := decide (s.fault = .none) })
  | arms (rest : List Stimulus) (hmay : s.mayArm) (h : t = { s with agenda := rest, rxArmed := true })
  | resets (rest : List Stimulus) (u : Unspecified) (hhead : s.agenda = .reset u :: rest)
      (h : t = applyReset u { s with agenda := rest })

/-- The block's part of a step, whichever of its two granularities it has. -/
theorem StepMove.of_block {s t : State} {rest : List Stimulus}
    (h : t = { s with agenda := rest } ∨
      ({ s with agenda := rest } : State).fault = .none ∧ BlockMove { s with agenda := rest } t) :
    StepMove s t := by
  obtain h | ⟨hf, h⟩ := h
  · exact .nothing rest h
  · exact .block rest hf h

theorem step_move {s t : State} (h : step s = .next t) : StepMove s t := by
  obtain ⟨-, h⟩ | ⟨x, rest, hhead, h⟩ := step_cases h
  · exact .of_block (rest := s.agenda) (runOperation_eq_next h)
  cases x with
  | request bytes =>
    simp only [applyStimulus, presentRequest] at h
    split_ifs at h with hmay hcap
    · exact .presents rest bytes hmay.1 hcap (Host.Outcome.next.inj h).symm
    · exact .nothing rest (Host.Outcome.next.inj h).symm
  | frame id d p spill =>
    simp only [applyStimulus] at h
    split_ifs at h with harmed
    · obtain ⟨-, hlen, ht⟩ := execDeliver_eq_next.mp h
      exact .delivers rest id d p spill harmed hlen ht
    · exact .nothing rest (Host.Outcome.next.inj h).symm
  | arm =>
    simp only [applyStimulus] at h
    split_ifs at h with hmay
    · exact .arms rest hmay (Host.Outcome.next.inj h).symm
    · exact .nothing rest (Host.Outcome.next.inj h).symm
  | reset u => exact .resets rest u hhead (Host.Outcome.next.inj h).symm
  | phase => exact .of_block (runPhase_eq_next h)
  | run => exact .of_block (runOperation_eq_next h)

/-- A move of the block is a part of an OUTBOUND or of an INBOUND. -/
theorem BlockMove.run {s t : State} (h : BlockMove s t) : OutboundRun s t ∨ InboundRun s t := by
  cases h with
  | startsOutbound h => exact .inl (.writes (by rw [h]; rfl))
  | phasesOutbound h => exact .inl (outboundPhase_run h)
  | resumesOutbound h => exact .inl (resumeOutbound_run h)
  | runsOutbound _ h => exact .inl (outboundOf_run h)
  | startsInbound _ h => exact .inr (.writes (by rw [h]; rfl))
  | phasesInbound h => exact .inr (inboundPhase_run h)
  | resumesInbound h => exact .inr (resumeInbound_run h)
  | runsInbound _ h => exact .inr (execInbound_run h)

end Sys2Proof.Machine

/-! SUPPORT. No operation and no step changes the parameters (10_state.md rule R31). -/

namespace Sys2Proof.Machine

@[simp] theorem takeSubmitReply_cfg (s : State) : (takeSubmitReply s).2.cfg = s.cfg := by
  simp only [takeSubmitReply]
  split <;> rfl

@[simp] theorem takeTransmitReply_cfg (s : State) : (takeTransmitReply s).2.cfg = s.cfg := by
  simp only [takeTransmitReply]
  split <;> rfl

@[simp] theorem callFaultHandler_cfg (code : BitVec 2) (s : State) :
    (callFaultHandler code s).cfg = s.cfg := by
  simp only [callFaultHandler]
  split_ifs <;> rfl

@[simp] theorem settleSubmit_cfg (r : Reply × State) : (settleSubmit r).cfg = r.2.cfg := by
  obtain ⟨_ | _ | _, s⟩ := r <;> rfl

@[simp] theorem settleTransmit_cfg (r : Reply × State) : (settleTransmit r).cfg = r.2.cfg := by
  obtain ⟨_ | _ | _, s⟩ := r <;> rfl

theorem phaseO5_cfg {called : Bool} {s t : State} (h : phaseO5 called s = .next t) :
    t.cfg = s.cfg := by
  obtain rfl | rfl := phaseO5_eq_next h <;> simp [callSubmit]

theorem phaseI3_cfg {called : Bool} {s t : State} (h : phaseI3 called s = .next t) :
    t.cfg = s.cfg := by
  obtain rfl | rfl := phaseI3_eq_next h <;> simp [callTransmit]

theorem finishI3_cfg {called : Bool} {s t : State} (h : finishI3 called s = .next t) :
    t.cfg = s.cfg := by
  obtain ⟨u, hu, ht⟩ := andThen_eq_next.mp h
  rw [← phaseI3_cfg hu]
  obtain ⟨-, rfl⟩ | ⟨-, rfl⟩ := afterTransmit_eq_next ht <;> rfl

theorem OutboundRun.cfg_eq {s t : State} (h : OutboundRun s t) : t.cfg = s.cfg := by
  cases h with
  | writes h => exact (congrArg State.cfg h :)
  | calls hu h => exact (phaseO5_cfg h).trans (congrArg State.cfg hu :)

theorem InboundRun.cfg_eq {s t : State} (h : InboundRun s t) : t.cfg = s.cfg := by
  cases h with
  | writes h => exact (congrArg State.cfg h :)
  | calls hu h => exact (h.elim phaseI3_cfg finishI3_cfg).trans (congrArg State.cfg hu :)
  | ends h => obtain rfl | rfl | rfl := h <;> rfl

theorem exec_cfg {i : Instr} {s t : State} (h : exec i s = .next t) : t.cfg = s.cfg := by
  cases i with
  | wpDlc0 | wpDlc1 | wpDlc2 | wpDlc3 | wpDlc4 | wpDlc5 | wpDlc6 | wpDlc7 | wpDlc8 | wpDlc9
  | wpDlc10 | wpDlc11 | wpDlc12 | wpDlc13 | wpDlc14 | wpDlc15 | outbound =>
    exact (outboundOf_run h).cfg_eq
  | inbound => exact (execInbound_run h).cfg_eq
  | byteCount | packHeader | unpackHeader | rearm | toggle =>
    cases h
    rfl
  | submit id d p =>
    obtain ⟨-, rfl⟩ := execSubmit_eq_next.mp h
    simp [callSubmit]
  | transmit b n =>
    obtain ⟨-, rfl⟩ := execTransmit_eq_next.mp h
    simp [callTransmit]
  | deliver id d p =>
    obtain ⟨-, -, rfl⟩ := execDeliver_eq_next.mp h
    rfl
  | faultHandler c =>
    simp only [exec, execFaultHandler] at h
    split at h <;> cases h
    exact callFaultHandler_cfg c s

theorem StepMove.cfg_eq {s t : State} (h : StepMove s t) : t.cfg = s.cfg := by
  cases h with
  | block _ _ h => exact h.run.elim OutboundRun.cfg_eq InboundRun.cfg_eq
  | nothing _ h | presents _ _ _ _ h | delivers _ _ _ _ _ _ _ h | arms _ _ h | resets _ _ _ h =>
    exact (congrArg State.cfg h :)

/-- Settles O50: every arm of `exec` and every move of a step carries the parameters along. -/
theorem parametersNeverChange : Obligations.ParametersNeverChange :=
  ⟨fun _ _ _ h => exec_cfg h, fun _ _ h => (step_move h).cfg_eq⟩

end Sys2Proof.Machine

/-! SUPPORT. FAULT and the `fault_handler` events over a step (10_state.md rule R26, 60_exceptions.md
rules R183, R184). -/

namespace Sys2Proof.Machine

/-- From `s` to `t` FAULT stays and only events other than `fault_handler` are emitted. -/
def Quiet (s t : State) : Prop :=
  t.fault = s.fault ∧ ∃ new, t.events = s.events ++ new ∧ ∀ c, Event.faultHandler c ∉ new

/-- From `s` to `t` a fault is taken: FAULT is written from 0, with its handler as the last event. -/
def TakesFault (s t : State) : Prop :=
  s.fault = .none ∧ t.fault ≠ .none ∧ ∃ before,
    t.events = s.events ++ (before ++ [.faultHandler t.fault.code]) ∧
    ∀ c, Event.faultHandler c ∉ before

theorem Quiet.of_eq {s t : State} (hf : t.fault = s.fault) (he : t.events = s.events) : Quiet s t :=
  ⟨hf, [], by simp [he], by simp⟩

theorem Quiet.of_withOutbound {s o t : State} (h : t = s.withOutbound o) : Quiet s t :=
  .of_eq (congrArg State.fault h :) (congrArg State.events h :)

theorem Quiet.of_withInbound {s i t : State} (h : t = s.withInbound i) : Quiet s t :=
  .of_eq (congrArg State.fault h :) (congrArg State.events h :)

theorem Quiet.emit {e : Event} (he : ∀ c, Event.faultHandler c ≠ e) (s : State) :
    Quiet s (s.emit e) :=
  ⟨rfl, [e], rfl, by simpa using he⟩

theorem Quiet.trans {s u t : State} (h : Quiet s u) (h' : Quiet u t) : Quiet s t := by
  obtain ⟨hf, new, he, hno⟩ := h
  obtain ⟨hf', new', he', hno'⟩ := h'
  exact ⟨hf'.trans hf, new ++ new', by simp [he', he], by simp [hno, hno']⟩

theorem TakesFault.after_quiet {s u t : State} (h : Quiet s u) (h' : TakesFault u t) :
    TakesFault s t := by
  obtain ⟨hf, new, he, hno⟩ := h
  obtain ⟨hf0, hft, before, he', hno'⟩ := h'
  exact ⟨hf ▸ hf0, hft, new ++ before, by simp [he', he], by simp [hno, hno']⟩

/-- A quiet part before either outcome does not change which outcome it is. -/
theorem Quiet.then_outcome {s u t : State} (h : Quiet s u) (h' : Quiet u t ∨ TakesFault u t) :
    Quiet s t ∨ TakesFault s t :=
  h'.imp h.trans (TakesFault.after_quiet h)

theorem takeSubmitReply_quiet (s : State) : Quiet s (takeSubmitReply s).2 := by
  simp only [takeSubmitReply]
  split <;> exact .of_eq rfl rfl

theorem takeTransmitReply_quiet (s : State) : Quiet s (takeTransmitReply s).2 := by
  simp only [takeTransmitReply]
  split <;> exact .of_eq rfl rfl

theorem callSubmit_quiet (id : Ident) (d : DlcCode) (p : List Byte) (s : State) :
    Quiet s (callSubmit id d p s).2 :=
  (Quiet.emit (by simp) s).trans (takeSubmitReply_quiet _)

theorem callTransmit_quiet (b : List Byte) (n : Count) (s : State) :
    Quiet s (callTransmit b n s).2 :=
  (Quiet.emit (by simp) s).trans (takeTransmitReply_quiet _)

theorem raiseFault_takesFault {c : FaultLatch} (hc : c ≠ .none) {s : State} (hf : s.fault = .none) :
    TakesFault s (raiseFault c s) := by
  cases c with
  | none => exact absurd rfl hc
  | submit => exact ⟨hf, by simp [raiseFault_submit], [], rfl, by simp⟩
  | transmit => exact ⟨hf, by simp [raiseFault_transmit], [], rfl, by simp⟩

/-- The answer `fault` of `submit` is the one that takes a fault. -/
theorem settleSubmit_outcome {r : Reply × State} (hf : r.2.fault = .none) :
    Quiet r.2 (settleSubmit r) ∨ TakesFault r.2 (settleSubmit r) := by
  obtain ⟨reply, s⟩ := r
  cases reply with
  | ok => exact .inl (.of_eq rfl rfl)
  | fault => exact .inr (raiseFault_takesFault (by simp) hf)
  | wait => exact .inl (.of_eq rfl rfl)

/-- The answer `fault` of `transmit` is the one that takes a fault. -/
theorem settleTransmit_outcome {r : Reply × State} (hf : r.2.fault = .none) :
    Quiet r.2 (settleTransmit r) ∨ TakesFault r.2 (settleTransmit r) := by
  obtain ⟨reply, s⟩ := r
  cases reply with
  | ok => exact .inl (.of_eq rfl rfl)
  | fault => exact .inr (raiseFault_takesFault (by simp) hf)
  | wait => exact .inl (.of_eq rfl rfl)

theorem phaseI4_quiet (s : State) : Quiet s (phaseI4 s) := ⟨rfl, [.toggle], rfl, by simp⟩

theorem phaseI5_quiet (s : State) : Quiet s (phaseI5 s) := ⟨rfl, [.rearm], rfl, by simp⟩

/-- After a fault nothing follows `transmit`, so the handler's event stays the last one. -/
theorem afterTransmit_settle_outcome {r : Reply × State} {t : State} (hf : r.2.fault = .none)
    (h : afterTransmit (settleTransmit r) = .next t) : Quiet r.2 t ∨ TakesFault r.2 t := by
  obtain ⟨reply, s⟩ := r
  cases reply with
  | ok =>
    rw [afterTransmit_settle_ok] at h
    cases h
    exact .inl ⟨rfl, [.toggle, .rearm], rfl, by simp⟩
  | fault =>
    rw [afterTransmit_settle_fault] at h
    cases h
    exact .inr (raiseFault_takesFault (by simp) hf)
  | wait =>
    rw [afterTransmit_settle_wait] at h
    cases h
    exact .inl (.of_eq rfl rfl)

theorem phaseO5_outcome {called : Bool} {s t : State} (hf : s.fault = .none)
    (h : phaseO5 called s = .next t) : Quiet s t ∨ TakesFault s t := by
  obtain rfl | rfl := phaseO5_eq_next h
  · have hq := takeSubmitReply_quiet s
    exact hq.then_outcome (settleSubmit_outcome (hq.1.trans hf))
  · have hq := callSubmit_quiet s.oId s.oDlc (Memory.readRange s.txb 0 s.oN.toNat) s
    exact hq.then_outcome (settleSubmit_outcome (hq.1.trans hf))

theorem phaseI3_outcome {called : Bool} {s t : State} (hf : s.fault = .none)
    (h : phaseI3 called s = .next t) : Quiet s t ∨ TakesFault s t := by
  obtain rfl | rfl := phaseI3_eq_next h
  · have hq := takeTransmitReply_quiet s
    exact hq.then_outcome (settleTransmit_outcome (hq.1.trans hf))
  · have hq := callTransmit_quiet (Memory.readRange s.rxb 0 s.iLen.toNat) s.iLen s
    exact hq.then_outcome (settleTransmit_outcome (hq.1.trans hf))

theorem finishI3_outcome {called : Bool} {s t : State} (hf : s.fault = .none)
    (h : finishI3 called s = .next t) : Quiet s t ∨ TakesFault s t := by
  obtain ⟨u, hu, ht⟩ := andThen_eq_next.mp h
  obtain rfl | rfl := phaseI3_eq_next hu
  · have hq := takeTransmitReply_quiet s
    exact hq.then_outcome (afterTransmit_settle_outcome (hq.1.trans hf) ht)
  · have hq := callTransmit_quiet (Memory.readRange s.rxb 0 s.iLen.toNat) s.iLen s
    exact hq.then_outcome (afterTransmit_settle_outcome (hq.1.trans hf) ht)

theorem OutboundRun.outcome {s t : State} (hf : s.fault = .none) (h : OutboundRun s t) :
    Quiet s t ∨ TakesFault s t := by
  cases h with
  | writes h => exact .inl (.of_withOutbound h)
  | calls hu h =>
    have hq := Quiet.of_withOutbound hu
    exact hq.then_outcome (phaseO5_outcome (hq.1.trans hf) h)

theorem InboundRun.outcome {s t : State} (hf : s.fault = .none) (h : InboundRun s t) :
    Quiet s t ∨ TakesFault s t := by
  cases h with
  | writes h => exact .inl (.of_withInbound h)
  | calls hu h =>
    have hq := Quiet.of_withInbound hu
    have hfu := hq.1.trans hf
    exact hq.then_outcome (h.elim (phaseI3_outcome hfu) (finishI3_outcome hfu))
  | ends h =>
    obtain rfl | rfl | rfl := h
    · exact .inl (phaseI4_quiet s)
    · exact .inl (phaseI5_quiet s)
    · exact .inl ((phaseI4_quiet s).trans (phaseI5_quiet _))

/-- A step is quiet, takes a fault, or is a reset. -/
theorem StepMove.outcome {s t : State} (h : StepMove s t) :
    (Quiet s t ∨ TakesFault s t) ∨
      ((∃ u rest, s.agenda = .reset u :: rest) ∧ t.fault = .none ∧ t.events = s.events) := by
  cases h with
  | block _ hf h =>
    exact .inl (h.run.elim (OutboundRun.outcome (s := { s with agenda := _ }) hf)
      (InboundRun.outcome (s := { s with agenda := _ }) hf))
  | resets rest u hhead h => exact .inr ⟨⟨u, rest, hhead⟩, by rw [h]; rfl, by rw [h]; rfl⟩
  | nothing _ h | presents _ _ _ _ h | delivers _ _ _ _ _ _ _ h | arms _ _ h =>
    exact .inl (.inl (.of_eq (congrArg State.fault h :) (congrArg State.events h :)))

/-- Settles O49: FAULT is written by the settling of a call alone, which nothing follows. -/
theorem faultLatchAndHandlerAgree : Obligations.FaultLatchAndHandlerAgree := by
  intro s t h
  obtain (⟨hf, new, he, hno⟩ | ⟨hf, hft, before, he, hno⟩) | ⟨hreset, hf, he⟩ :=
    (step_move h).outcome
  · exact ⟨new, he, .inl ⟨hf, hno⟩⟩
  · exact ⟨_, he, .inr (.inl ⟨hf, hft, before, rfl, hno⟩)⟩
  · exact ⟨[], by simp [he], .inr (.inr ⟨hreset, hf, rfl⟩)⟩

end Sys2Proof.Machine

/-! SUPPORT. The invariant of the machine holds at reset and every step keeps it: phase by phase, then
for the operations that the phases make up, then for the step. -/

namespace Sys2Proof.Machine

/-! ### What each part of the invariant asks of an update -/

/-- A state whose outbound side alone was written keeps the invariant when that side is in order. -/
theorem State.Consistent.withOutbound {s o : State} (h : s.Consistent)
    (hwf : Memory.wf o.txb = true) (hb : Memory.below bufCap o.txb = true)
    (ho : (s.withOutbound o).OutboundOk) : (s.withOutbound o).Consistent where
  buffers := { h.buffers with txbWf := hwf, txbBelow := hb }
  outbound := ho
  inbound := h.inbound
  oneFrame := h.oneFrame
  canonical := h.canonical

/-- A state whose inbound side alone was written keeps the invariant when that side is in order. -/
theorem State.Consistent.withInbound {s i : State} (h : s.Consistent)
    (hwf : Memory.wf i.rxb = true) (hb : Memory.below bufCap i.rxb = true)
    (hi : (s.withInbound i).InboundOk) (hone : (s.withInbound i).OneFrame) :
    (s.withInbound i).Consistent where
  buffers := { h.buffers with rxbWf := hwf, rxbBelow := hb }
  outbound := h.outbound
  inbound := hi
  oneFrame := hone
  canonical := h.canonical

theorem State.Consistent.emit {s : State} (h : s.Consistent) {e : Event}
    (he : Event.canonical e = true) : (s.emit e).Consistent where
  buffers := { h.buffers with }
  outbound := h.outbound
  inbound := h.inbound
  oneFrame := h.oneFrame
  canonical := by simpa [or_imp, forall_and, he] using h.canonical

theorem State.Consistent.withAgenda {s : State} (h : s.Consistent) (rest : List Stimulus) :
    ({ s with agenda := rest } : State).Consistent :=
  { h with buffers := { h.buffers with } }

/-- The outbound agent may come to rest at any time, with FAULT written or not. -/
theorem State.Consistent.outboundIdle {s : State} (h : s.Consistent) (c : FaultLatch) :
    ({ s with fault := c, oPhase := .idle } : State).Consistent :=
  { h with buffers := { h.buffers with }, outbound := trivial }

/-- While INBOUND is part-way through, its agent may come to rest. -/
theorem State.Consistent.inboundIdle {s : State} (h : s.Consistent) (c : FaultLatch)
    (hi : s.iPhase ≠ .idle) : ({ s with fault := c, iPhase := .idle } : State).Consistent :=
  { h with
    buffers := { h.buffers with }
    inbound := trivial
    oneFrame := ⟨fun _ => h.oneFrame.1 (.inl hi), fun hne => absurd rfl hne⟩ }

theorem takeSubmitReply_consistent {s : State} (h : s.Consistent) :
    (takeSubmitReply s).2.Consistent := by
  simp only [takeSubmitReply]
  split
  · exact h
  · exact { h with buffers := { h.buffers with } }

theorem takeTransmitReply_consistent {s : State} (h : s.Consistent) :
    (takeTransmitReply s).2.Consistent := by
  simp only [takeTransmitReply]
  split
  · exact h
  · exact { h with buffers := { h.buffers with } }

@[simp] theorem takeSubmitReply_oPhase (s : State) :
    (takeSubmitReply s).2.oPhase = s.oPhase := by
  simp only [takeSubmitReply]
  split <;> rfl

@[simp] theorem takeTransmitReply_iPhase (s : State) :
    (takeTransmitReply s).2.iPhase = s.iPhase := by
  simp only [takeTransmitReply]
  split <;> rfl

/-! ### The outbound phases -/

/-- The invariant with the outbound agent at phase `p` of a request that fits in IN. -/
structure State.OutboundAt (p : OPhase) (req : List Byte) (s : State) : Prop where
  consistent : s.Consistent
  phase : s.oPhase = p
  fits : req.length ≤ s.inLen

theorem State.OutboundAt.ok {p : OPhase} {req : List Byte} {s : State} (h : s.OutboundAt p req) :
    ({ s with oPhase := p } : State).OutboundOk := by
  obtain ⟨hc, rfl, -⟩ := h
  exact hc.outbound

theorem startOutbound_at {req : List Byte} {s : State} (h : s.Consistent)
    (hl : req.length ≤ s.inLen) : (startOutbound s).OutboundAt .o1 req :=
  ⟨h.withOutbound (o := startOutbound s) h.buffers.txbWf h.buffers.txbBelow trivial, rfl, hl⟩

theorem phaseO1_keeps {req : List Byte} {s t : State} (h : s.OutboundAt .o1 req)
    (ht : phaseO1 req s = .next t) : t.OutboundAt .o2 req := by
  simp only [phaseO1] at ht
  split_ifs at ht with h2
  cases ht
  have h2' : 2 ≤ s.inLen := by have := h.fits; omega
  exact ⟨h.consistent.withOutbound (o := { s with oHdr := headerOf req, oPhase := .o2 })
    h.consistent.buffers.txbWf h.consistent.buffers.txbBelow h2', rfl, h.fits⟩

theorem phaseO2_keeps {req : List Byte} {s : State} (h : s.OutboundAt .o2 req) :
    (phaseO2 s).OutboundAt .o3 req :=
  ⟨h.consistent.withOutbound (o := phaseO2 s) h.consistent.buffers.txbWf
    h.consistent.buffers.txbBelow ⟨h.ok, rfl⟩, rfl, h.fits⟩

theorem phaseO3_keeps {req : List Byte} {s t : State} (h : s.OutboundAt .o3 req)
    (ht : phaseO3 req s = .next t) : t.OutboundAt (.o4 0) req := by
  simp only [phaseO3] at ht
  split_ifs at ht with hlen
  cases ht
  have hn : 2 + (byteCount s.oDlc).toNat ≤ s.inLen := by have := h.fits; omega
  exact ⟨h.consistent.withOutbound (o := { s with oN := byteCount s.oDlc, oPhase := .o4 0 })
    h.consistent.buffers.txbWf h.consistent.buffers.txbBelow
    ⟨h.ok.2, rfl, hn, Nat.zero_le _⟩, rfl, h.fits⟩

theorem phaseO4_keeps {req : List Byte} {k : Nat} {s t : State} (h : s.OutboundAt (.o4 k) req)
    (ht : phaseO4 req k s = .next t) : t.OutboundAt (.o5 false) req := by
  simp only [phaseO4] at ht
  split_ifs at ht with hin
  cases ht
  obtain ⟨hfields, hn, -, hk⟩ : s.FieldsLatched ∧ s.oN = byteCount s.oDlc ∧
    2 + s.oN.toNat ≤ s.inLen ∧ k ≤ s.oN.toNat := h.ok
  have hb : Memory.below bufCap
      (Memory.writeRange s.txb k ((req.drop (2 + k)).take (s.oN.toNat - k))) = true := by
    refine Memory.below_writeRange h.consistent.buffers.txbBelow ?_
    have := hin.2
    simp only [List.length_take]
    omega
  exact ⟨h.consistent.withOutbound
    (o := { s with
      txb := Memory.writeRange s.txb k ((req.drop (2 + k)).take (s.oN.toNat - k))
      oPhase := .o5 false })
    (Memory.wf_writeRange h.consistent.buffers.txbWf _ _) hb ⟨hfields, hn⟩, rfl, h.fits⟩

theorem copyStep_keeps {req : List Byte} {k : Nat} {s t : State} (h : s.OutboundAt (.o4 k) req)
    (ht : copyStep req k s = .next t) : t.Consistent := by
  obtain ⟨hfields, hn, hle, -⟩ : s.FieldsLatched ∧ s.oN = byteCount s.oDlc ∧
    2 + s.oN.toNat ≤ s.inLen ∧ k ≤ s.oN.toNat := h.ok
  simp only [copyStep] at ht
  split_ifs at ht with hin hk <;> cases ht
  · have hb := Memory.below_write h.consistent.buffers.txbBelow
      (show k < bufCap from Nat.lt_of_lt_of_le hk hin.2) (req.getD (2 + k) 0)
    exact h.consistent.withOutbound
      (o := { s with txb := Memory.write s.txb k (req.getD (2 + k) 0), oPhase := .o4 (k + 1) })
      (Memory.wf_write h.consistent.buffers.txbWf _ _) hb ⟨hfields, hn, hle, hk⟩
  · exact h.consistent.withOutbound (o := { s with oPhase := .o5 false })
      h.consistent.buffers.txbWf h.consistent.buffers.txbBelow ⟨hfields, hn⟩

/-- Whatever `submit` answers, its settling keeps the invariant. -/
theorem settleSubmit_consistent {r : Reply × State} {called : Bool} (h : r.2.Consistent)
    (h5 : r.2.oPhase = .o5 called) : (settleSubmit r).Consistent := by
  obtain ⟨reply, s⟩ := r
  cases reply with
  | ok => exact h.outboundIdle s.fault
  | fault => exact (h.emit (e := .faultHandler 1) rfl).outboundIdle .submit
  | wait =>
    have hat : s.OutboundAt (.o5 called) [] := ⟨h, h5, Nat.zero_le _⟩
    exact h.withOutbound (o := { s with oPhase := .o5 true }) h.buffers.txbWf h.buffers.txbBelow
      hat.ok

theorem phaseO5_keeps {req : List Byte} {called : Bool} {s t : State}
    (h : s.OutboundAt (.o5 called) req) (ht : phaseO5 called s = .next t) : t.Consistent := by
  obtain ⟨-, hn⟩ : s.FieldsLatched ∧ s.oN = byteCount s.oDlc := h.ok
  obtain rfl | rfl := phaseO5_eq_next ht
  · exact settleSubmit_consistent (takeSubmitReply_consistent h.consistent)
      ((takeSubmitReply_oPhase s).trans h.phase)
  · have he := h.consistent.emit
      (e := .submit s.oId s.oDlc (Memory.readRange s.txb 0 s.oN.toNat))
      (by simp [Event.canonical, hn])
    exact settleSubmit_consistent (takeSubmitReply_consistent he)
      ((takeSubmitReply_oPhase _).trans h.phase)

theorem finishO4_keeps {req : List Byte} {k : Nat} {s t : State} (h : s.OutboundAt (.o4 k) req)
    (ht : finishO4 req k s = .next t) : t.Consistent := by
  obtain ⟨u, hu, ht⟩ := andThen_eq_next.mp ht
  exact phaseO5_keeps (phaseO4_keeps h hu) ht

theorem finishO3_keeps {req : List Byte} {s t : State} (h : s.OutboundAt .o3 req)
    (ht : finishO3 req s = .next t) : t.Consistent := by
  obtain ⟨u, hu, ht⟩ := andThen_eq_next.mp ht
  exact finishO4_keeps (phaseO3_keeps h hu) ht

theorem finishO2_keeps {req : List Byte} {s t : State} (h : s.OutboundAt .o2 req)
    (ht : finishO2 req s = .next t) : t.Consistent :=
  finishO3_keeps (phaseO2_keeps h) ht

theorem finishO1_keeps {req : List Byte} {s t : State} (h : s.OutboundAt .o1 req)
    (ht : finishO1 req s = .next t) : t.Consistent := by
  obtain ⟨u, hu, ht⟩ := andThen_eq_next.mp ht
  exact finishO2_keeps (phaseO1_keeps h hu) ht

theorem resumeOutbound_keeps {req : List Byte} {s t : State} (h : s.Consistent)
    (hl : req.length ≤ s.inLen) (ht : resumeOutbound req s = .next t) : t.Consistent := by
  simp only [resumeOutbound] at ht
  split at ht
  case h_1 => cases ht; exact h
  case h_2 hp => exact finishO1_keeps ⟨h, hp, hl⟩ ht
  case h_3 hp => exact finishO2_keeps ⟨h, hp, hl⟩ ht
  case h_4 hp => exact finishO3_keeps ⟨h, hp, hl⟩ ht
  case h_5 k hp => exact finishO4_keeps ⟨h, hp, hl⟩ ht
  case h_6 called hp => exact phaseO5_keeps ⟨h, hp, hl⟩ ht

theorem outboundPhase_keeps {req : List Byte} {s t : State} (h : s.Consistent)
    (hl : req.length ≤ s.inLen) (ht : outboundPhase req s = .next t) : t.Consistent := by
  simp only [outboundPhase] at ht
  split at ht
  case h_1 => cases ht; exact h
  case h_2 hp => exact (phaseO1_keeps ⟨h, hp, hl⟩ ht).consistent
  case h_3 hp => cases ht; exact (phaseO2_keeps (req := req) ⟨h, hp, hl⟩).consistent
  case h_4 hp => exact (phaseO3_keeps ⟨h, hp, hl⟩ ht).consistent
  case h_5 k hp => exact copyStep_keeps ⟨h, hp, hl⟩ ht
  case h_6 called hp => exact phaseO5_keeps ⟨h, hp, hl⟩ ht

theorem outboundOf_keeps {req : List Byte} {s t : State} (h : s.Consistent)
    (hl : req.length ≤ s.inLen) (ht : outboundOf req s = .next t) : t.Consistent := by
  simp only [outboundOf] at ht
  split at ht
  · exact finishO1_keeps (startOutbound_at h hl) ht
  · cases ht
    exact h

/-! ### The inbound phases -/

/-- The invariant with the inbound agent at phase `p`. -/
structure State.InboundAt (p : IPhase) (s : State) : Prop where
  consistent : s.Consistent
  phase : s.iPhase = p

theorem State.InboundAt.ok {p : IPhase} {s : State} (h : s.InboundAt p) :
    ({ s with iPhase := p } : State).InboundOk := by
  obtain ⟨hc, rfl⟩ := h
  exact hc.inbound

/-- While INBOUND is part-way through, going to any phase leaves one frame in flight. -/
theorem State.InboundAt.oneFrame {p : IPhase} {s : State} (h : s.InboundAt p) (hp : p ≠ .idle) :
    s.rxArmed = false ∧ s.rxTrigger = false := by
  obtain ⟨hc, rfl⟩ := h
  exact ⟨hc.oneFrame.1 (.inl hp), hc.oneFrame.2 hp⟩

/-- A phase that goes on to another one keeps the invariant when it leaves RXB and the latches in order. -/
theorem State.InboundAt.next {p q : IPhase} {s i : State} (h : s.InboundAt p) (hp : p ≠ .idle)
    (hq : i.iPhase = q) (htrig : i.rxTrigger = s.rxTrigger) (hwf : Memory.wf i.rxb = true)
    (hb : Memory.below bufCap i.rxb = true) (hi : (s.withInbound i).InboundOk) :
    (s.withInbound i).InboundAt q := by
  obtain ⟨harm, hrx⟩ := h.oneFrame hp
  exact ⟨h.consistent.withInbound hwf hb hi ⟨fun _ => harm, fun _ => htrig.trans hrx⟩, hq⟩

theorem startInbound_at {s : State} (h : s.Consistent) (hrx : s.rxTrigger = true) :
    (startInbound s).InboundAt .i1a :=
  ⟨h.withInbound (i := startInbound s) h.buffers.rxbWf h.buffers.rxbBelow trivial
    ⟨fun _ => h.oneFrame.1 (.inr hrx), fun _ => rfl⟩, rfl⟩

theorem phaseI1a_keeps {s : State} (h : s.InboundAt .i1a) : (phaseI1a s).InboundAt .i1b := by
  have hwf := h.consistent.buffers.rxbWf
  refine h.next (i := phaseI1a s) (by simp) rfl rfl (Memory.wf_write (Memory.wf_write hwf _ _) _ _)
    (Memory.below_write (Memory.below_write h.consistent.buffers.rxbBelow (by simp) _) (by simp) _) ?_
  exact Memory.readRange_writeRange hwf 0 [idLowByte s.iId, idHighByte s.iId]

theorem phaseI1b_keeps {s : State} (h : s.InboundAt .i1b) : (phaseI1b s).InboundAt .i2 := by
  have hwf := h.consistent.buffers.rxbWf
  refine h.next (i := phaseI1b s) (by simp) rfl rfl (Memory.wf_write hwf _ _)
    (Memory.below_write h.consistent.buffers.rxbBelow (by simp) _) ?_
  have hid : Memory.readRange s.rxb 0 2 = [idLowByte s.iId, idHighByte s.iId] := h.ok
  obtain ⟨h0, h1⟩ : Memory.read s.rxb 0 = idLowByte s.iId ∧
      Memory.read s.rxb 1 = idHighByte s.iId := by simpa [Memory.readRange] using hid
  show Memory.readRange (Memory.write s.rxb 1 (Memory.read s.rxb 1 ||| dlcInByte1 s.iDlc)) 0 2 =
    hdrBytes (packHeader s.iId s.iDlc)
  simp [Memory.readRange, Memory.read_write hwf, hdrBytes_packHeader, h0, h1]

theorem phaseI2_keeps {s : State} (h : s.InboundAt .i2) : (phaseI2 s).InboundAt (.i3 false) :=
  h.next (i := phaseI2 s) (by simp) rfl rfl h.consistent.buffers.rxbWf h.consistent.buffers.rxbBelow
    ⟨h.ok, rfl, rfl⟩

/-- A buffer that begins with the header of `d` and is as long as `d` says is a packet that may leave the
block (R82). -/
theorem canonical_transmit {m : Memory} {id : Ident} {d : DlcCode}
    (h : Memory.readRange m 0 2 = hdrBytes (packHeader id d)) :
    Event.canonical (.transmit (Memory.readRange m 0 (packetLength d).toNat) (packetLength d)) =
      true := by
  have hhdr : headerOf (Memory.readRange m 0 (packetLength d).toNat) = packetHeader 0 d id := by
    rw [packetLength_toNat, Memory.readRange_append, h, headerOf_hdrBytes_append,
      packHeader_eq_packetHeader]
  simp [Event.canonical, hhdr, headerRsvd_packetHeader]

/-- Whatever `transmit` answers, its settling keeps the invariant. -/
theorem settleTransmit_consistent {r : Reply × State} {called : Bool} (h : r.2.Consistent)
    (h3 : r.2.iPhase = .i3 called) : (settleTransmit r).Consistent := by
  obtain ⟨reply, s⟩ := r
  have hat : s.InboundAt (.i3 called) := ⟨h, h3⟩
  cases reply with
  | ok =>
    exact (hat.next (i := { s with iPhase := .i4 }) (by simp) rfl rfl h.buffers.rxbWf
      h.buffers.rxbBelow trivial).consistent
  | fault =>
    exact (h.emit (e := .faultHandler 2) rfl).inboundIdle .transmit (by simp [hat.phase])
  | wait =>
    exact (hat.next (i := { s with iPhase := .i3 true }) (by simp) rfl rfl h.buffers.rxbWf
      h.buffers.rxbBelow hat.ok).consistent

theorem phaseI3_keeps {called : Bool} {s t : State} (h : s.InboundAt (.i3 called))
    (ht : phaseI3 called s = .next t) : t.Consistent := by
  obtain ⟨hhdr, -, hlen⟩ : s.HeaderComposed ∧ s.iN = byteCount s.iDlc ∧
    s.iLen = packetLength s.iDlc := h.ok
  obtain rfl | rfl := phaseI3_eq_next ht
  · exact settleTransmit_consistent (takeTransmitReply_consistent h.consistent)
      ((takeTransmitReply_iPhase s).trans h.phase)
  · have he := h.consistent.emit (hlen ▸ canonical_transmit hhdr)
    exact settleTransmit_consistent (takeTransmitReply_consistent he)
      ((takeTransmitReply_iPhase _).trans h.phase)

theorem phaseI4_keeps {s : State} (h : s.InboundAt .i4) : (phaseI4 s).InboundAt .i5 := by
  have htog : (doToggle s).InboundAt .i4 :=
    ⟨.emit (s := { s with diag := !s.diag })
      { h.consistent with buffers := { h.consistent.buffers with } } rfl, h.phase⟩
  exact htog.next (i := phaseI4 s) (by simp) rfl rfl h.consistent.buffers.rxbWf
    h.consistent.buffers.rxbBelow trivial

/-- With `rearm` the frame has left the block, so the bus collaborator may deliver again. -/
theorem phaseI5_keeps {s : State} (h : s.InboundAt .i5) : (phaseI5 s).Consistent := by
  obtain ⟨-, hrx⟩ := h.oneFrame (by simp)
  exact .emit (s := { s with rxArmed := true, iPhase := .idle })
    { h.consistent with
      buffers := { h.consistent.buffers with }
      inbound := trivial
      oneFrame := ⟨by simp [hrx], by simp⟩ } rfl

theorem finishI3_keeps {called : Bool} {s t : State} (h : s.InboundAt (.i3 called))
    (ht : finishI3 called s = .next t) : t.Consistent := by
  obtain ⟨u, hu, ht⟩ := andThen_eq_next.mp ht
  have hc := phaseI3_keeps h hu
  obtain ⟨h4, rfl⟩ | ⟨-, rfl⟩ := afterTransmit_eq_next ht
  · exact phaseI5_keeps (phaseI4_keeps ⟨hc, h4⟩)
  · exact hc

theorem resumeInbound_keeps {s t : State} (h : s.Consistent) (ht : resumeInbound s = .next t) :
    t.Consistent := by
  simp only [resumeInbound] at ht
  split at ht
  case h_1 => cases ht; exact h
  case h_2 hp =>
    exact finishI3_keeps (phaseI2_keeps (phaseI1b_keeps (phaseI1a_keeps ⟨h, hp⟩))) ht
  case h_3 hp => exact finishI3_keeps (phaseI2_keeps (phaseI1b_keeps ⟨h, hp⟩)) ht
  case h_4 hp => exact finishI3_keeps (phaseI2_keeps ⟨h, hp⟩) ht
  case h_5 called hp => exact finishI3_keeps ⟨h, hp⟩ ht
  case h_6 hp => cases ht; exact phaseI5_keeps (phaseI4_keeps ⟨h, hp⟩)
  case h_7 hp => cases ht; exact phaseI5_keeps ⟨h, hp⟩

theorem inboundPhase_keeps {s t : State} (h : s.Consistent) (ht : inboundPhase s = .next t) :
    t.Consistent := by
  simp only [inboundPhase] at ht
  split at ht
  case h_1 => cases ht; exact h
  case h_2 hp => cases ht; exact (phaseI1a_keeps ⟨h, hp⟩).consistent
  case h_3 hp => cases ht; exact (phaseI1b_keeps ⟨h, hp⟩).consistent
  case h_4 hp => cases ht; exact (phaseI2_keeps ⟨h, hp⟩).consistent
  case h_5 called hp => exact phaseI3_keeps ⟨h, hp⟩ ht
  case h_6 hp => cases ht; exact (phaseI4_keeps ⟨h, hp⟩).consistent
  case h_7 hp => cases ht; exact phaseI5_keeps ⟨h, hp⟩

theorem execInbound_keeps {s t : State} (h : s.Consistent) (hrx : s.rxTrigger = true)
    (ht : execInbound s = .next t) : t.Consistent := by
  simp only [execInbound] at ht
  split at ht
  · exact resumeInbound_keeps (startInbound_at h hrx).consistent ht
  · cases ht
    exact h

/-! ### The step -/

theorem BlockMove.keeps {s t : State} (h : s.Consistent) (hm : BlockMove s t) : t.Consistent := by
  have hreq : s.request.length ≤ s.inLen := by simp
  cases hm with
  | startsOutbound ht => exact ht ▸ (startOutbound_at h hreq).consistent
  | phasesOutbound ht => exact outboundPhase_keeps h hreq ht
  | resumesOutbound ht => exact resumeOutbound_keeps h hreq ht
  | runsOutbound hlen ht => exact outboundOf_keeps h hlen ht
  | startsInbound hrx ht => exact ht ▸ (startInbound_at h hrx).consistent
  | phasesInbound ht => exact inboundPhase_keeps h ht
  | resumesInbound ht => exact resumeInbound_keeps h ht
  | runsInbound hrx ht => exact execInbound_keeps h hrx ht

/-- While the bus collaborator may deliver, no frame is in the block. -/
theorem State.Consistent.noFrame_of_armed {s : State} (h : s.Consistent) (ha : s.rxArmed = true) :
    s.iPhase = .idle ∧ s.rxTrigger = false := by
  have hno : ¬ (s.iPhase ≠ .idle ∨ s.rxTrigger = true) := fun hin => by
    simp [h.oneFrame.1 hin] at ha
  simpa using hno

theorem State.Consistent.presented {s : State} (h : s.Consistent) (hidle : s.oPhase = .idle)
    {bytes : List Byte} (hcap : bytes.length ≤ s.cfg.inCap) :
    ({ s with inb := Memory.ofBytes bytes, inLen := bytes.length, hostSend := true } :
      State).Consistent :=
  { h with
    buffers := { h.buffers with
      inbWf := Memory.wf_ofBytes bytes
      inbBelow := Memory.below_ofBytes bytes
      inLenLe := hcap }
    outbound := by simp [State.OutboundOk, hidle] }

theorem State.Consistent.delivered {s : State} (h : s.Consistent) (harmed : s.rxArmed = true)
    (id : Ident) {d : DlcCode} {p : List Byte} (hlen : p.length = (byteCount d).toNat)
    (spill : List Byte) :
    ({ s with
      iId := id
      iDlc := d
      rxb := deliverBytes d p spill s.rxb
      spill := []
      rxArmed := false
      rxTrigger := decide (s.fault = .none) } : State).Consistent := by
  obtain ⟨hi, -⟩ := h.noFrame_of_armed harmed
  exact { h with
    buffers := { h.buffers with
      rxbWf := wf_deliverBytes h.buffers.rxbWf d p spill
      rxbBelow := below_deliverBytes h.buffers.rxbBelow hlen spill }
    inbound := by simp [State.InboundOk, hi]
    oneFrame := ⟨fun _ => rfl, fun hne => absurd hi hne⟩ }

theorem State.Consistent.armed {s : State} (h : s.Consistent) (hmay : s.mayArm) :
    ({ s with rxArmed := true } : State).Consistent := by
  obtain ⟨-, hi, hrx⟩ := hmay
  exact { h with
    buffers := { h.buffers with }
    oneFrame := ⟨by simp [hi, hrx], fun hne => absurd hi hne⟩ }

theorem below_ofBytes_take (bytes : List Byte) (cap : Nat) :
    Memory.below cap (Memory.ofBytes (bytes.take cap)) = true :=
  Memory.below_mono (by simp) (Memory.below_ofBytes (bytes.take cap))

theorem applyReset_consistent {s : State} (h : s.Consistent) (u : Unspecified) :
    (applyReset u s).Consistent where
  buffers :=
    { txbWf := Memory.wf_ofBytes _
      rxbWf := Memory.wf_ofBytes _
      inbWf := rfl
      txbBelow := below_ofBytes_take u.txb bufCap
      rxbBelow := below_ofBytes_take u.rxb bufCap
      inbBelow := rfl
      inLenLe := Nat.zero_le _ }
  outbound := trivial
  inbound := trivial
  oneFrame := by simp [State.OneFrame, applyReset]
  canonical := h.canonical

/-- Settles O51: every move that a step can be keeps the invariant. -/
theorem stepKeepsConsistent : Obligations.StepKeepsConsistent := by
  intro s t h hstep
  cases step_move hstep with
  | nothing rest ht => exact ht ▸ h.withAgenda rest
  | block rest _ hm => exact hm.keeps (h.withAgenda rest)
  | presents rest _ hidle hcap ht => exact ht ▸ (h.withAgenda rest).presented hidle hcap
  | delivers rest id d p spill harmed hlen ht =>
    exact ht ▸ (h.withAgenda rest).delivered harmed id hlen spill
  | arms rest hmay ht => exact ht ▸ (h.withAgenda rest).armed hmay
  | resets rest u _ ht => exact ht ▸ applyReset_consistent (h.withAgenda rest) u

/-- Settles O52: the buffers are empty, both agents idle, and no event has been emitted. -/
theorem resetIsConsistent : Obligations.ResetIsConsistent where
  buffers := ⟨rfl, rfl, rfl, rfl, rfl, rfl, Nat.zero_le _⟩
  outbound := trivial
  inbound := trivial
  oneFrame := by simp [State.OneFrame, State.reset]
  canonical := by simp [State.reset]

end Sys2Proof.Machine

/-! SUPPORT. What the environment's moves do to the state, and the reset state. -/

namespace Sys2Proof.Machine

/-- Settles O44: the head of the agenda is the bus collaborator's move. -/
theorem stepDelivers : Obligations.StepDelivers := by
  intro s id d p spill rest hhead
  rw [step_of_agenda_cons hhead]
  exact ⟨fun harmed => if_pos harmed, fun hno => if_neg (by simp [hno])⟩

/-- Settles O45: what the transport places reads back as the request. -/
theorem stepPresentsRequest : Obligations.StepPresentsRequest := by
  intro s bytes rest hhead
  rw [step_of_agenda_cons hhead]
  constructor
  · intro hidle hno hcap
    refine ⟨Memory.ofBytes bytes, ?_, Memory.wf_ofBytes bytes, Memory.readRange_ofBytes bytes⟩
    simp only [applyStimulus, presentRequest]
    rw [if_pos ⟨hidle, hno⟩, if_pos hcap]
  · intro hbusy
    refine if_neg fun hmay => ?_
    obtain ⟨hidle, hno⟩ : s.oPhase = .idle ∧ s.hostSend = false := hmay
    simp [hidle, hno] at hbusy

/-- A buffer filled with the first `cap` bytes of a list reads as the list there. -/
theorem read_ofBytes_take (bytes : List Byte) {cap k : Nat} (hk : k < cap) :
    Memory.read (Memory.ofBytes (bytes.take cap)) k = bytes.getD k 0 := by
  rw [Memory.ofBytes, Memory.read_writeRange (m := []) rfl]
  by_cases hlen : k < bytes.length
  · rw [if_pos (by simp only [List.length_take]; omega)]
    simp [List.getD_eq_getElem?_getD, hk]
  · rw [if_neg (by simp only [List.length_take]; omega), List.getD_eq_default _ _ (by omega)]
    rfl

/-- Settles O46: the reset of the model, read field by field. -/
theorem stepResets : Obligations.StepResets := by
  intro s u rest hhead
  rw [step_of_agenda_cons hhead]
  refine ⟨applyReset u { s with agenda := rest }, rfl, rfl, rfl, rfl, rfl, rfl, rfl, rfl, rfl, rfl, rfl,
    ?_, ?_, rfl, rfl, rfl, rfl, rfl, rfl, rfl, rfl, rfl⟩
  · exact fun k hk => read_ofBytes_take u.txb hk
  · exact fun k hk => read_ofBytes_take u.rxb hk

/-- Settles O47: each field as `State.reset` gives it. -/
theorem resetStateIsIdle : Obligations.ResetStateIsIdle :=
  ⟨⟨rfl, rfl⟩, rfl, rfl, rfl, rfl, rfl⟩

end Sys2Proof.Machine

/-! SUPPORT. What an operation does not depend on: OUTBOUND on what TXB held, INBOUND on the outbound
side. -/

namespace Sys2Proof.Machine

/-- OUTBOUND and the packets in one form. -/
theorem exec_of_isOutboundOf {i : Instr} {s : State} {req : List Byte} (h : IsOutboundOf i s req) :
    exec i s = outboundOf req s := by
  obtain ⟨rfl, rfl⟩ | ⟨d, r, id, p, rfl, rfl⟩ := h
  · rfl
  · exact exec_packet d r id p s

/-- Settling an answer of `submit` neither reads nor writes TXB. -/
theorem settleSubmit_txb (m : Memory) (s : State) :
    settleSubmit (takeSubmitReply { s with txb := m }) =
      { settleSubmit (takeSubmitReply s) with txb := m } := by
  by_cases hr : s.submitReplies = []
  · rw [takeSubmitReply_nil hr, takeSubmitReply_nil (s := { s with txb := m }) hr]
    rfl
  · obtain ⟨r, rs, hr⟩ := List.exists_cons_of_ne_nil hr
    rw [takeSubmitReply_cons hr, takeSubmitReply_cons (s := { s with txb := m }) hr]
    cases r <;> rfl

/-- Settles O25: `submit` gets the payload by value, which is the request's whatever TXB held. -/
theorem outboundIgnoresStaleTxb : Obligations.OutboundIgnoresStaleTxb := by
  intro i s t req m hi hwf hm hs
  have hi' : IsOutboundOf i { s with txb := m } req := hi
  rw [exec_of_isOutboundOf hi] at hs
  rw [exec_of_isOutboundOf hi']
  obtain ⟨hno, rfl⟩ | ⟨hstart, hpass, -⟩ := outboundOf_eq_next hs
  · exact ⟨m, outboundOf_not_started hno⟩
  · rw [outboundOf_runs hstart hpass hwf] at hs
    cases hs
    rw [outboundOf_runs (s := { s with txb := m }) hstart hpass hm]
    exact ⟨_, congrArg Host.Outcome.next (settleSubmit_txb _
      ((atSubmit req (startOutbound s)).emit _))⟩

/-- What follows the call of `transmit` neither reads nor writes the outbound side. -/
theorem afterTransmit_settle_withOutbound (s o : State) :
    afterTransmit (settleTransmit (takeTransmitReply (s.withOutbound o))) =
      andThen (afterTransmit (settleTransmit (takeTransmitReply s)))
        fun t => .next (t.withOutbound o) := by
  rcases hr : s.transmitReplies with _ | ⟨r, rs⟩
  · rw [takeTransmitReply_nil hr, takeTransmitReply_nil (s := s.withOutbound o) hr]
    rfl
  · rw [takeTransmitReply_cons hr, takeTransmitReply_cons (s := s.withOutbound o) hr]
    cases r <;> rfl

/-- INBOUND neither reads nor writes the outbound side (R152, R27). -/
theorem execInbound_withOutbound (s o : State) :
    execInbound (s.withOutbound o) =
      andThen (execInbound s) fun t => .next (t.withOutbound o) := by
  simp only [execInbound_eq, State.inboundStarts, State.withOutbound_fault,
    State.withOutbound_iPhase]
  split
  · exact afterTransmit_settle_withOutbound ((atTransmit s).emit _) o
  · rfl

/-- Settles O57: the phase writes the outbound side alone and INBOUND the rest, and neither reads what the
other writes. -/
theorem inboundCommutesWithOutboundPhase : Obligations.InboundCommutesWithOutboundPhase := by
  intro req s s1 s2 h5 h1 h2
  have hs1 : s1 = s.withOutbound s1 := outboundPhase_writes h5 h1
  have hs2 : s2 = s2.withOutbound s := by
    have heq := execInbound_withOutbound s s
    rw [show s.withOutbound s = s from rfl, show execInbound s = .next s2 from h2] at heq
    exact Host.Outcome.next.inj heq
  refine ⟨s2.withOutbound s1, ?_, ?_⟩
  · rw [hs1]
    calc execInbound (s.withOutbound s1)
      _ = andThen (execInbound s) fun t => .next (t.withOutbound s1) := execInbound_withOutbound s s1
      _ = .next (s2.withOutbound s1) := by rw [show execInbound s = .next s2 from h2, andThen_next]
  · calc outboundPhase req s2
      _ = outboundPhase req (s2.withOutbound s) := by rw [← hs2]
      _ = .next (s2.withOutbound s1) := by
        rw [outboundPhase_withOutbound s2 h5 (exec_cfg h2), h1, andThen_next]

end Sys2Proof.Machine

/-! SUPPORT. What OUTBOUND reads of IN: the first `2 + n` bytes of the request (20_memory.md rule R49). -/

namespace Sys2Proof.Machine

/-- `s` with another content of IN and another IN_LEN. -/
@[simps] def State.withIn (m : Memory) (l : Nat) (s : State) : State := { s with inb := m, inLen := l }

/-- A range read that is cut is a shorter range read. -/
theorem Memory.take_readRange (m : Memory) (a : Nat) {k n : Nat} (h : k ≤ n) :
    (Memory.readRange m a n).take k = Memory.readRange m a k := by
  obtain ⟨j, rfl⟩ := Nat.exists_eq_add_of_le h
  rw [Memory.readRange_append, List.take_left' (by simp)]

/-- The header is read off the first two bytes. -/
theorem headerOf_take (req : List Byte) (n : Nat) : headerOf (req.take (2 + n)) = headerOf req := by
  simp [headerOf, List.getD_eq_getElem?_getD, show 1 < 2 + n by omega]

theorem headerOf_congr {req req' : List Byte} {n : Nat} (h : req'.take (2 + n) = req.take (2 + n)) :
    headerOf req' = headerOf req := by
  rw [← headerOf_take req' n, h, headerOf_take]

theorem reqPayload_congr {req req' : List Byte}
    (h : req'.take (2 + (byteCount (reqDlc req)).toNat) =
      req.take (2 + (byteCount (reqDlc req)).toNat)) : reqPayload req' = reqPayload req := by
  simp only [reqPayload, reqDlc, headerOf_congr h, List.take_drop] at h ⊢
  rw [h]

/-- The state before the call of `submit` depends on the header and the payload alone. -/
theorem atSubmit_congr {req req' : List Byte} (hh : headerOf req' = headerOf req)
    (hp : reqPayload req' = reqPayload req) (s : State) : atSubmit req' s = atSubmit req s := by
  simp only [atSubmit, reqDlc, hh, hp]

/-- What an OUTBOUND of a request that is long enough does: bit 15 may refuse it, and otherwise `submit` is
called and settled. -/
theorem outboundOf_eq {req : List Byte} (hlen : 2 + (byteCount (reqDlc req)).toNat ≤ req.length)
    (s : State) :
    outboundOf req s =
      if s.outboundStarts then
        if s.cfg.rsvd15 = .refuse ∧ headerRsvd (headerOf req) = true then .refused .reservedBitSet
        else .next (settleSubmit (callSubmit (headerId (headerOf req)) (reqDlc req)
          (Memory.readRange (atSubmit req (startOutbound s)).txb 0 (byteCount (reqDlc req)).toNat)
          (atSubmit req (startOutbound s))))
      else .next s := by
  simp only [outboundOf]
  split
  · by_cases hr : s.cfg.rsvd15 = .refuse ∧ headerRsvd (headerOf req) = true
    · rw [if_pos hr, finishO1_stops (s := startOutbound s) (fun hp => hp.1 hr), if_neg (by omega),
      startOutbound_cfg, if_pos hr]
    · rw [if_neg hr, finishO1_eq (s := startOutbound s) ⟨hr, hlen⟩, phaseO5_atSubmit]
  · rfl

/-- Two requests that begin with the same packet are the same OUTBOUND. -/
theorem outboundOf_congr {req req' : List Byte}
    (hlen : 2 + (byteCount (reqDlc req)).toNat ≤ req.length)
    (hlen' : 2 + (byteCount (reqDlc req)).toNat ≤ req'.length)
    (h : req'.take (2 + (byteCount (reqDlc req)).toNat) =
      req.take (2 + (byteCount (reqDlc req)).toNat)) (s : State) :
    outboundOf req' s = outboundOf req s := by
  have hh := headerOf_congr h
  have hd : reqDlc req' = reqDlc req := congrArg headerDlc hh
  rw [outboundOf_eq hlen, outboundOf_eq (hd ▸ hlen'), atSubmit_congr hh (reqPayload_congr h), hh, hd]

/-- Settling an answer of `submit` neither reads nor writes IN. -/
theorem settleSubmit_withIn (m : Memory) (l : Nat) (s : State) :
    settleSubmit (takeSubmitReply (s.withIn m l)) =
      (settleSubmit (takeSubmitReply s)).withIn m l := by
  rcases hr : s.submitReplies with _ | ⟨r, rs⟩
  · rw [takeSubmitReply_nil hr, takeSubmitReply_nil (s := s.withIn m l) hr]
    rfl
  · rw [takeSubmitReply_cons hr, takeSubmitReply_cons (s := s.withIn m l) hr]
    cases r <;> rfl

/-- An OUTBOUND of given bytes neither reads nor writes IN. -/
theorem outboundOf_withIn {req : List Byte} (hlen : 2 + (byteCount (reqDlc req)).toNat ≤ req.length)
    (m : Memory) (l : Nat) (s : State) :
    outboundOf req (s.withIn m l) =
      andThen (outboundOf req s) fun t => .next (t.withIn m l) := by
  simp only [outboundOf_eq hlen, State.outboundStarts, State.withIn_fault, State.withIn_oPhase,
    State.withIn_cfg]
  split_ifs
  · rfl
  · exact congrArg Host.Outcome.next (settleSubmit_withIn m l
      ((atSubmit req (startOutbound s)).emit _))
  · rfl

/-- A buffer that agrees with IN on the first `n` bytes begins with the same request bytes. -/
theorem State.take_request_withIn {s : State} {m : Memory} {l n : Nat} (hn : n ≤ s.inLen)
    (hl : n ≤ l) (h : ∀ k, k < n → Memory.read m k = Memory.read s.inb k) :
    (s.withIn m l).request.take n = s.request.take n := by
  calc (s.withIn m l).request.take n
    _ = Memory.readRange m 0 n := Memory.take_readRange m 0 hl
    _ = Memory.readRange s.inb 0 n := Memory.readRange_congr fun x _ hx => h x (by omega)
    _ = s.request.take n := (Memory.take_readRange s.inb 0 hn).symm

/-- OUTBOUND answers the same whatever IN holds at or above `2 + n`. -/
theorem execOutbound_withIn {s : State} {m : Memory} {l : Nat}
    (hn : 2 + (byteCount (reqDlc s.request)).toNat ≤ s.inLen)
    (hl : 2 + (byteCount (reqDlc s.request)).toNat ≤ l)
    (h : ∀ k, k < 2 + (byteCount (reqDlc s.request)).toNat →
      Memory.read m k = Memory.read s.inb k) :
    execOutbound (s.withIn m l) =
      andThen (execOutbound s) fun t => .next (t.withIn m l) := by
  have hlen : 2 + (byteCount (reqDlc s.request)).toNat ≤ s.request.length := by simpa using hn
  have hlen' : 2 + (byteCount (reqDlc s.request)).toNat ≤ (s.withIn m l).request.length := by
    simpa [State.withIn] using hl
  calc execOutbound (s.withIn m l)
    _ = outboundOf s.request (s.withIn m l) :=
      outboundOf_congr hlen hlen' (State.take_request_withIn hn hl h) _
    _ = andThen (execOutbound s) fun t => .next (t.withIn m l) := outboundOf_withIn hlen m l s

/-- An OUTBOUND of a request that passes its checks answers a next state. -/
theorem outboundOf_completes {req : List Byte} {s : State} (h : requestPasses s.cfg.rsvd15 req) :
    ∃ t, outboundOf req s = .next t := by
  rw [outboundOf_eq h.2, if_neg h.1]
  split_ifs <;> exact ⟨_, rfl⟩

/-- Settles O24: OUTBOUND answers the same for both requests, so a next state carries over, and so does a
refusal. -/
theorem outboundReadsOnlyItsPacket : Obligations.OutboundReadsOnlyItsPacket := by
  intro s m l hn hl h
  have heq : exec .outbound (s.withIn m l) =
      andThen (exec .outbound s) fun t => .next (t.withIn m l) := execOutbound_withIn hn hl h
  refine ⟨fun t ht => ?_, fun e he => ?_, fun hmeets => ?_⟩
  · exact heq.trans (by rw [ht, andThen_next]; rfl)
  · exact heq.trans (by rw [he, andThen_refused])
  · have hpass : requestPasses s.cfg.rsvd15 s.request :=
      ⟨fun hr => by simp [hmeets.2 hr.1] at hr, hmeets.1⟩
    obtain ⟨t, ht⟩ := outboundOf_completes hpass
    exact ⟨t.withIn m l, heq.trans (by rw [show exec .outbound s = .next t from ht, andThen_next])⟩

end Sys2Proof.Machine

/-! SUPPORT. What INBOUND leaves unchanged (43_inbound_serializer.md rule R152). -/

namespace Sys2Proof.Machine

/-- Composing the header changes no byte at offset 2 or above (R51). -/
theorem read_composedRxb_of_two_le {s : State} (hwf : Memory.wf s.rxb = true) {k : Nat}
    (hk : 2 ≤ k) : Memory.read (composedRxb s) k = Memory.read s.rxb k := by
  rw [read_composedRxb hwf, Memory.read_writeRange hwf, if_neg (by simp; omega)]

/-- Settles O33: I1a to I2 write RXB, `i.n` and `i.len`, and what follows the call writes none of these. -/
theorem inboundFrame : Obligations.InboundFrame := by
  intro s t h
  replace h : execInbound s = .next t := h
  rw [execInbound_eq] at h
  split at h
  · obtain ⟨_, _, _, _, _, _, heq⟩ := afterTransmit_frame ((atTransmit s).emit (.transmit
      (Memory.readRange (composedRxb s) 0 (packetLength s.iDlc).toNat) (packetLength s.iDlc)))
    cases heq.symm.trans h
    exact ⟨rfl, rfl, rfl, rfl, rfl, rfl, rfl, rfl, rfl, rfl, rfl, rfl, rfl, rfl, rfl, rfl,
      fun hwf _ hk => read_composedRxb_of_two_le hwf hk⟩
  · cases h
    exact ⟨rfl, rfl, rfl, rfl, rfl, rfl, rfl, rfl, rfl, rfl, rfl, rfl, rfl, rfl, rfl, rfl,
      fun _ _ _ => rfl⟩

end Sys2Proof.Machine

/-! SUPPORT. From a consistent state no access leaves its buffer and no frame comes unarmed
(20_memory.md rule R54, 10_state.md rule R28). -/

namespace Sys2Proof.Machine

/-- The answer is a next state or a refusal. -/
def FaultFree (a : Answer) : Prop := ∀ f, a ≠ .fault f

@[simp] theorem faultFree_next (s : State) : FaultFree (.next s) := fun _ h => by cases h

@[simp] theorem faultFree_refused (e : Refusal) : FaultFree (.refused e) := fun _ h => by cases h

theorem FaultFree.andThen {r : Answer} {g : State → Answer} (hr : FaultFree r)
    (hg : ∀ s, r = .next s → FaultFree (g s)) : FaultFree (andThen r g) := by
  cases r with
  | next s => exact hg s rfl
  | fault f => exact absurd rfl (hr f)
  | refused e => exact faultFree_refused e

/-! ### What the invariant says of the bounds -/

theorem byteCount_le_bufCap (d : DlcCode) : (byteCount d).toNat ≤ bufCap :=
  (byteCount_le d).trans (by decide)

theorem packetLength_le_bufCap (d : DlcCode) : (packetLength d).toNat ≤ bufCap := by
  have hbc := byteCount_le d
  simp only [packetLength_toNat, bufCap]
  omega

theorem State.Consistent.copyInBounds {s : State} {k : Nat} (h : s.Consistent)
    (hp : s.oPhase = .o4 k) : copyInBounds s.request s := by
  have hat : s.OutboundAt (.o4 k) s.request := ⟨h, hp, by simp⟩
  obtain ⟨-, hn, hle, -⟩ : s.FieldsLatched ∧ s.oN = byteCount s.oDlc ∧
    2 + s.oN.toNat ≤ s.inLen ∧ k ≤ s.oN.toNat := hat.ok
  exact ⟨by simpa using hle, hn ▸ byteCount_le_bufCap s.oDlc⟩

theorem State.Consistent.oN_le_bufCap {s : State} {called : Bool} (h : s.Consistent)
    (hp : s.oPhase = .o5 called) : s.oN.toNat ≤ bufCap := by
  have hat : s.OutboundAt (.o5 called) s.request := ⟨h, hp, by simp⟩
  obtain ⟨-, hn⟩ : s.FieldsLatched ∧ s.oN = byteCount s.oDlc := hat.ok
  exact hn ▸ byteCount_le_bufCap s.oDlc

theorem State.Consistent.iLen_le_bufCap {s : State} {called : Bool} (h : s.Consistent)
    (hp : s.iPhase = .i3 called) : s.iLen.toNat ≤ bufCap := by
  have hat : s.InboundAt (.i3 called) := ⟨h, hp⟩
  obtain ⟨-, -, hlen⟩ : s.HeaderComposed ∧ s.iN = byteCount s.iDlc ∧
    s.iLen = packetLength s.iDlc := hat.ok
  exact hlen ▸ packetLength_le_bufCap s.iDlc

/-! ### OUTBOUND -/

theorem phaseO1_faultFree (req : List Byte) (s : State) : FaultFree (phaseO1 req s) := by
  simp only [phaseO1]
  split_ifs <;> simp

theorem phaseO3_faultFree (req : List Byte) (s : State) : FaultFree (phaseO3 req s) := by
  simp only [phaseO3]
  split_ifs <;> simp

theorem copyStep_faultFree {req : List Byte} {k : Nat} {s : State} (h : copyInBounds req s) :
    FaultFree (copyStep req k s) := by
  simp only [copyStep, if_pos h]
  split_ifs <;> simp

theorem phaseO5_faultFree {called : Bool} {s : State} (h : s.oN.toNat ≤ bufCap) :
    FaultFree (phaseO5 called s) := by
  simp only [phaseO5, if_pos h]
  split_ifs <;> simp

theorem finishO4_faultFree {req : List Byte} {k : Nat} {s : State} (h : copyInBounds req s) :
    FaultFree (finishO4 req k s) := by
  simp only [finishO4, phaseO4, if_pos h, andThen_next]
  exact phaseO5_faultFree h.2

/-- After the check of O3 the copy stays inside the request, and `ByteCount` keeps it inside TXB. -/
theorem phaseO3_copyInBounds {req : List Byte} {s t : State} (h : phaseO3 req s = .next t) :
    copyInBounds req t := by
  simp only [phaseO3] at h
  split_ifs at h with hlen
  cases h
  exact ⟨Nat.le_of_not_lt hlen, byteCount_le_bufCap s.oDlc⟩

theorem finishO3_faultFree (req : List Byte) (s : State) : FaultFree (finishO3 req s) :=
  (phaseO3_faultFree req s).andThen fun _ h => finishO4_faultFree (phaseO3_copyInBounds h)

theorem finishO1_faultFree (req : List Byte) (s : State) : FaultFree (finishO1 req s) :=
  (phaseO1_faultFree req s).andThen fun _ _ => finishO3_faultFree req _

theorem outboundOf_faultFree (req : List Byte) (s : State) : FaultFree (outboundOf req s) := by
  simp only [outboundOf]
  split
  · exact finishO1_faultFree req _
  · exact faultFree_next s

theorem resumeOutbound_faultFree {s : State} (h : s.Consistent) :
    FaultFree (resumeOutbound s.request s) := by
  simp only [resumeOutbound]
  split
  case h_1 => exact faultFree_next s
  case h_2 => exact finishO1_faultFree s.request s
  case h_3 => exact finishO3_faultFree s.request (phaseO2 s)
  case h_4 => exact finishO3_faultFree s.request s
  case h_5 k hp => exact finishO4_faultFree (h.copyInBounds hp)
  case h_6 called hp => exact phaseO5_faultFree (h.oN_le_bufCap hp)

theorem outboundPhase_faultFree {s : State} (h : s.Consistent) :
    FaultFree (outboundPhase s.request s) := by
  simp only [outboundPhase]
  split
  case h_1 | h_3 => exact faultFree_next _
  case h_2 => exact phaseO1_faultFree s.request s
  case h_4 => exact phaseO3_faultFree s.request s
  case h_5 k hp => exact copyStep_faultFree (h.copyInBounds hp)
  case h_6 called hp => exact phaseO5_faultFree (h.oN_le_bufCap hp)

/-- The fetch refuses, or executes a packet, which is an OUTBOUND. -/
theorem fetchAndExec_faultFree (s : State) : FaultFree (fetchAndExec s) := by
  simp only [fetchAndExec]
  split
  case h_1 i rest hdec =>
    rw [decodePacket_passes (passes_of_decodePacket hdec), Decoded.ok.injEq] at hdec
    obtain ⟨rfl, -⟩ := hdec
    rw [exec_packet]
    exact outboundOf_faultFree _ s
  case h_2 => exact faultFree_refused _

/-! ### INBOUND -/

theorem phaseI3_faultFree {called : Bool} {s : State} (h : s.iLen.toNat ≤ bufCap) :
    FaultFree (phaseI3 called s) := by
  simp only [phaseI3, if_pos h]
  split_ifs <;> simp

theorem afterTransmit_faultFree (s : State) : FaultFree (afterTransmit s) := by
  simp only [afterTransmit]
  split <;> simp

theorem finishI3_faultFree {called : Bool} {s : State} (h : s.iLen.toNat ≤ bufCap) :
    FaultFree (finishI3 called s) :=
  (phaseI3_faultFree h).andThen fun t _ => afterTransmit_faultFree t

theorem resumeInbound_faultFree {s : State} (h : s.Consistent) : FaultFree (resumeInbound s) := by
  simp only [resumeInbound]
  split
  case h_1 | h_6 | h_7 => exact faultFree_next _
  case h_2 | h_3 | h_4 => exact finishI3_faultFree (packetLength_le_bufCap s.iDlc)
  case h_5 called hp => exact finishI3_faultFree (h.iLen_le_bufCap hp)

theorem inboundPhase_faultFree {s : State} (h : s.Consistent) : FaultFree (inboundPhase s) := by
  simp only [inboundPhase]
  split
  case h_5 called hp => exact phaseI3_faultFree (h.iLen_le_bufCap hp)
  all_goals exact faultFree_next _

theorem execInbound_faultFree (s : State) : FaultFree (execInbound s) := by
  rw [execInbound_eq]
  split
  · exact afterTransmit_faultFree _
  · exact faultFree_next s

/-! ### The step -/

theorem runOperation_faultFree {s : State} (h : s.Consistent) : FaultFree (runOperation s) := by
  simp only [runOperation]
  split
  case h_1 => exact faultFree_next s
  case h_2 => exact resumeInbound_faultFree h
  case h_3 => exact execInbound_faultFree s
  case h_4 => exact resumeOutbound_faultFree h
  case h_5 => exact fetchAndExec_faultFree s

theorem runPhase_faultFree {s : State} (h : s.Consistent) : FaultFree (runPhase s) := by
  simp only [runPhase]
  split
  case h_1 | h_3 | h_5 => exact faultFree_next _
  case h_2 => exact inboundPhase_faultFree h
  case h_4 => exact outboundPhase_faultFree h

/-- `deliver` stops with a fault only while `rx_armed = 0`. -/
theorem execDeliver_faultFree {s : State} (harmed : s.rxArmed = true) (id : Ident) (d : DlcCode)
    (p : List Byte) : FaultFree (execDeliver id d p s) := by
  simp only [execDeliver, if_neg (show ¬ s.rxArmed = false by simp [harmed])]
  split_ifs <;> simp

theorem applyStimulus_faultFree {s : State} (h : s.Consistent) (x : Stimulus) :
    FaultFree (applyStimulus x s) := by
  cases x with
  | request bytes =>
    simp only [applyStimulus, presentRequest]
    split_ifs <;> simp
  | frame id d p spill =>
    simp only [applyStimulus]
    split
    case isTrue harmed =>
      exact execDeliver_faultFree (s := { s with spill := spill }) harmed id d p
    case isFalse => exact faultFree_next s
  | arm =>
    simp only [applyStimulus]
    split_ifs <;> simp
  | reset u => exact faultFree_next (applyReset u s)
  | phase => exact runPhase_faultFree h
  | run => exact runOperation_faultFree h

/-- Settles O53: the invariant bounds every access of the block, and the collaborator's move asks for
`rx_armed`. -/
theorem consistentStepsNeverFault : Obligations.ConsistentStepsNeverFault := by
  intro s f h hfault
  obtain ⟨-, hrun⟩ | ⟨x, rest, -, hhead⟩ := step_cases hfault
  · exact runOperation_faultFree h f hrun
  · exact applyStimulus_faultFree (h.withAgenda rest) x f hhead

end Sys2Proof.Machine

/-! SUPPORT. What encoded bytes decode to (30_encoding.md): a header and a payload, then the bytes of
every operation; the header's masks and its second byte. -/

namespace Sys2Proof

/-! ### The parts of a packet -/

/-- A payload of the promised length is cut off exactly. -/
theorem takePayload_append {d : DlcCode} {p : List Byte} (hp : p.length = (byteCount d).toNat)
    (rest : List Byte) (make : List Byte → Instr) :
    takePayload d (p ++ rest) make = .ok (make p) rest := by
  simp [takePayload, ← hp]

theorem withIdDlc_packetHeader (id : Ident) (d : DlcCode) (rest : List Byte)
    (next : Ident → DlcCode → List Byte → Decoded) :
    withIdDlc (hdrBytes (packetHeader 0 d id) ++ rest) next = next id d rest := by
  have hr : headerRsvd (packetHeader 0 d id) = false := by
    rw [headerRsvd_packetHeader]
    decide
  simp only [withIdDlc, hdrBytes, List.cons_append, List.nil_append, hdrOfBytes_split, hr,
    Bool.false_eq_true, if_false, headerId_packetHeader, headerDlc_packetHeader]

/-- The frame ports `submit` and `deliver` read a packet's pattern with bit 15 clear. -/
theorem withIdDlc_packetBytes {d : DlcCode} {p : List Byte} (hp : p.length = (byteCount d).toNat)
    (id : Ident) (rest : List Byte) (make : Ident → DlcCode → List Byte → Instr) :
    withIdDlc (packetBytes 0 d id p ++ rest) (fun id d tail => takePayload d tail (make id d)) =
      .ok (make id d p) rest := by
  rw [packetBytes, List.append_assoc, withIdDlc_packetHeader, takePayload_append hp]

/-- The decoder on the bytes of a packet: bit 15 alone decides, and only under `refuse` (R79,
R123). -/
theorem decodePacket_packetBytes {policy : Rsvd15Policy} {r : BitVec 1} {d : DlcCode} {id : Ident}
    {p : List Byte} (hp : p.length = (byteCount d).toNat) (rest : List Byte) :
    decodePacket policy (packetBytes r d id p ++ rest) =
      if policy = .refuse ∧ r = 1 then .reject .reservedBitSet
      else .ok (Instr.packet d r id p) rest := by
  simp only [packetBytes, hdrBytes, List.cons_append, List.nil_append, decodePacket,
    hdrOfBytes_split, headerRsvd_packetHeader, headerDlc_packetHeader, headerId_packetHeader,
    rsvdField_packetHeader, takePayload_append hp, decide_eq_true_eq]

/-! ### Every operation -/

/-- An operation is the packet of some form or one of the eleven others. -/
theorem Instr.packetCases {motive : Instr → Prop}
    (packet : ∀ d r id p, motive (Instr.packet d r id p))
    (byteCount : ∀ d, motive (.byteCount d)) (packHeader : ∀ id d, motive (.packHeader id d))
    (unpackHeader : ∀ h, motive (.unpackHeader h)) (outbound : motive .outbound)
    (inbound : motive .inbound) (submit : ∀ id d p, motive (.submit id d p))
    (deliver : ∀ id d p, motive (.deliver id d p)) (rearm : motive .rearm)
    (transmit : ∀ b n, motive (.transmit b n)) (toggle : motive .toggle)
    (faultHandler : ∀ c, motive (.faultHandler c)) (i : Instr) : motive i := by
  cases i with
  | wpDlc0 r id p => exact packet 0 r id p
  | wpDlc1 r id p => exact packet 1 r id p
  | wpDlc2 r id p => exact packet 2 r id p
  | wpDlc3 r id p => exact packet 3 r id p
  | wpDlc4 r id p => exact packet 4 r id p
  | wpDlc5 r id p => exact packet 5 r id p
  | wpDlc6 r id p => exact packet 6 r id p
  | wpDlc7 r id p => exact packet 7 r id p
  | wpDlc8 r id p => exact packet 8 r id p
  | wpDlc9 r id p => exact packet 9 r id p
  | wpDlc10 r id p => exact packet 10 r id p
  | wpDlc11 r id p => exact packet 11 r id p
  | wpDlc12 r id p => exact packet 12 r id p
  | wpDlc13 r id p => exact packet 13 r id p
  | wpDlc14 r id p => exact packet 14 r id p
  | wpDlc15 r id p => exact packet 15 r id p
  | byteCount d => exact byteCount d
  | packHeader id d => exact packHeader id d
  | unpackHeader h => exact unpackHeader h
  | outbound => exact outbound
  | inbound => exact inbound
  | submit id d p => exact submit id d p
  | deliver id d p => exact deliver id d p
  | rearm => exact rearm
  | transmit b n => exact transmit b n
  | toggle => exact toggle
  | faultHandler c => exact faultHandler c

theorem decode_encode_packet {policy : Rsvd15Policy} {r : BitVec 1} {d : DlcCode} {id : Ident}
    {p : List Byte} (hp : p.length = (byteCount d).toNat) (rest : List Byte) :
    decode .hostSend policy (encode (Instr.packet d r id p) ++ rest) =
      if policy = .refuse ∧ r = 1 then .reject .reservedBitSet
      else .ok (Instr.packet d r id p) rest := by
  rw [encode_packet]
  exact decodePacket_packetBytes hp rest

theorem decode_encode_byteCount (policy : Rsvd15Policy) (d : DlcCode) (rest : List Byte) :
    decode .byteCount policy (encode (.byteCount d) ++ rest) = .ok (.byteCount d) rest := by
  have hlt : (d.setWidth 8).toNat < 16 := by rw [BitVec.toNat_setWidth]; omega
  have hback : (d.setWidth 8).setWidth 4 = d := by simp
  simp only [decode, encode, List.cons_append, List.nil_append, if_pos hlt, hback]

theorem decode_encode_transmit {policy : Rsvd15Policy} {b : List Byte} {n : Count}
    (hwf : bufferFits b n = true) (rest : List Byte) :
    decode .transmit policy (encode (.transmit b n) ++ rest) = .ok (.transmit b n) rest := by
  simp only [bufferFits, Bool.and_eq_true, beq_iff_eq] at hwf
  obtain ⟨hn, hlen⟩ := hwf
  have hback : (n.setWidth 8).setWidth 7 = n := by simp
  have hnat : (n.setWidth 8).toNat = b.length := by rw [BitVec.toNat_setWidth]; omega
  simp only [decode, encode, List.cons_append, hback, hnat, hn]
  rw [if_neg (by omega), if_neg (by simp), if_neg (by simp)]
  simp

theorem decode_encode_faultHandler {policy : Rsvd15Policy} {c : BitVec 2}
    (hwf : codeIsSent c = true) (rest : List Byte) :
    decode .faultHandler policy (encode (.faultHandler c) ++ rest) =
      .ok (.faultHandler c) rest := by
  have hback : (c.setWidth 8).setWidth 2 = c := by simp
  have hlt : (c.setWidth 8).toNat < 4 := by rw [BitVec.toNat_setWidth]; omega
  simp only [decode, encode, List.cons_append, List.nil_append, hback, hwf]
  rw [if_neg (not_not.mpr hlt), if_neg (by simp)]

/-! ### The header's masks (R76) -/

/-- A mask that keeps the four bits of the DLC code keeps the code. -/
theorem headerDlc_and {m : Header} (hm : m >>> 11 &&& 0xF#16 = 0xF#16) (h : Header) :
    headerDlc (h &&& m) = headerDlc h := by
  rw [headerDlc, BitVec.ushiftRight_and_distrib, BitVec.and_assoc, hm, headerDlc]

/-- A mask that keeps bit 15 keeps it. -/
theorem headerRsvd_and {m : Header} (hm : headerRsvd m = true) (h : Header) :
    headerRsvd (h &&& m) = headerRsvd h := by
  rw [headerRsvd] at hm
  simp [headerRsvd, hm]

/-- The match of form `d` is the packed header with identifier 0. -/
theorem packetHeader_zero_zero (d : DlcCode) : packetHeader 0 d 0 = d.setWidth 16 <<< 11 := by
  rw [← packHeader_eq_packetHeader]
  simp [packHeader]

/-- The mask of either policy fixes the DLC code. -/
theorem headerDlc_of_mask {policy : Rsvd15Policy} {h : Header} {d : DlcCode}
    (hm : h &&& (if policy = .refuse then 0xF800#16 else 0x7800#16) = d.setWidth 16 <<< 11) :
    headerDlc h = d := by
  have hkeeps : (if policy = .refuse then 0xF800#16 else 0x7800#16) >>> 11 &&& 0xF#16 = 0xF#16 := by
    cases policy <;> decide
  rw [← headerDlc_and hkeeps h, hm, ← packetHeader_zero_zero, headerDlc_packetHeader]

/-- The mask of `refuse` fixes bit 15 as well. -/
theorem headerRsvd_of_mask {h : Header} {d : DlcCode}
    (hm : h &&& 0xF800#16 = d.setWidth 16 <<< 11) : headerRsvd h = false := by
  rw [← headerRsvd_and (m := 0xF800#16) (by decide) h, hm, ← packetHeader_zero_zero,
    headerRsvd_packetHeader]
  decide

theorem headerId_eq_extractLsb' (h : Header) : headerId h = h.extractLsb' 0 11 := by
  apply BitVec.eq_of_toNat_eq
  simp [headerId_toNat]

theorem rsvdField_eq_extractLsb' (h : Header) : (h >>> 15).setWidth 1 = h.extractLsb' 15 1 := by
  apply BitVec.eq_of_toNat_eq
  simp

/-! ### The length in the second byte (R80) -/

/-- Bits 6..3 of a header's second byte are its DLC code. -/
theorem dlc_of_byte1 (h : Header) :
    (((h >>> 8).setWidth 8 : Byte) >>> 3).setWidth 4 = headerDlc h := by
  apply BitVec.eq_of_toNat_eq
  rw [headerDlc_toNat]
  simp only [BitVec.toNat_setWidth, BitVec.toNat_ushiftRight, Nat.shiftRight_eq_div_pow]
  omega

theorem lengthFromByte1_packetBytes (r : BitVec 1) (d : DlcCode) (id : Ident) (p : List Byte) :
    lengthFromByte1 ((packetBytes r d id p).getD 1 0) = packetLength d := by
  have hbyte : (packetBytes r d id p).getD 1 0 = (packetHeader r d id >>> 8).setWidth 8 := rfl
  rw [hbyte, lengthFromByte1, dlc_of_byte1, headerDlc_packetHeader]

end Sys2Proof

/-! SUPPORT. The statements about the encoding: the two directions, the form and the length of a
packet (30_encoding.md rules R75 to R80). -/

namespace Sys2Proof.Machine

/-- Settles O10: a packet is one case whatever its form; of the others, those that carry a header or
a payload reuse the decoder's two parts. -/
theorem decodeOfEncode : Obligations.DecodeOfEncode := by
  intro i rest hwf
  cases i using Instr.packetCases with
  | packet d r id p =>
    rw [wellFormed_packet, payloadFits_iff] at hwf
    rw [portOf_packet, decode_encode_packet hwf]
    simp
  | byteCount d => exact decode_encode_byteCount .ignore d rest
  | packHeader id d =>
    exact withIdDlc_packetHeader id d rest fun id d =>
      .ok (.packHeader id d)
  | unpackHeader h => simp [portOf, decode, encode, hdrBytes]
  | submit id d p => exact withIdDlc_packetBytes ((payloadFits_iff d p).mp hwf) id rest .submit
  | deliver id d p => exact withIdDlc_packetBytes ((payloadFits_iff d p).mp hwf) id rest .deliver
  | transmit b n => exact decode_encode_transmit hwf rest
  | faultHandler c => exact decode_encode_faultHandler hwf rest
  | outbound => rfl
  | inbound => rfl
  | rearm => rfl
  | toggle => rfl

/-- Settles O11: bit 15 is one bit, so it is 1 when it is not 0. -/
theorem refusePolicyRejectsBit15 : Obligations.RefusePolicyRejectsBit15 := by
  intro d r id p rest hp
  rw [decode_encode_packet hp]
  obtain rfl | rfl := BitVec.eq_zero_or_eq_one r
  · simp
  · simp

/-- Settles O12: what decodes passes the checks, and a request that passes them is the packet of its
own header fields followed by the surplus. -/
theorem encodeOfDecode : Obligations.EncodeOfDecode := by
  intro policy bytes i rest hdec
  have hpass : requestPasses policy bytes := passes_of_decodePacket hdec
  have hlen : 2 + (byteCount (reqDlc bytes)).toNat ≤ bytes.length := hpass.2
  have heq := (decodePacket_passes hpass).symm.trans hdec
  rw [Decoded.ok.injEq] at heq
  obtain ⟨rfl, rfl⟩ := heq
  refine ⟨?_, ?_, _, _, _, _, rfl⟩
  · rw [wellFormed_packet, payloadFits_iff]
    exact length_reqPayload hlen
  · rw [encode_packet, packetBytes_of_request (by omega), List.take_append_drop]

/-- Settles O13: the mask fixes the DLC code, and under `refuse` bit 15 as well, so the checks
pass. -/
theorem maskSelectsTheForm : Obligations.MaskSelectsTheForm := by
  intro policy b0 b1 rest d hmask hlen
  rw [← hdrOfBytes] at hmask ⊢
  have hd : reqDlc (b0 :: b1 :: rest) = d := headerDlc_of_mask hmask
  have hpass : requestPasses policy (b0 :: b1 :: rest) := by
    constructor
    · rintro ⟨rfl, hr⟩
      exact absurd (headerRsvd_of_mask hmask) (by simpa [headerOf] using hr)
    · simp only [hd, List.length_cons]
      omega
  have hdec := decodePacket_passes hpass
  rw [reqPayload, hd, headerId_eq_extractLsb', rsvdField_eq_extractLsb', Nat.add_comm 2] at hdec
  exact hdec

/-- Settles O14: the second byte gives the DLC code back, and the code gives the length. -/
theorem lengthKnownFromSecondByte : Obligations.LengthKnownFromSecondByte := by
  intro d r id p hp
  rw [encode_packet, lengthFromByte1_packetBytes, packetLength_toNat, length_packetBytes, hp]

/-- Settles O15: eight closed words, each decoded by evaluation. -/
theorem someWordsDecode : Obligations.SomeWordsDecode := by
  unfold Obligations.SomeWordsDecode
  decide

end Sys2Proof.Machine

/-! SUPPORT. The Length Codec (40_length_codec.md): the table entry by entry, and `ByteCount` executed
by itself. -/

namespace Sys2Proof

/-- The sixteen entries of R100, read as numbers. -/
theorem toNat_dlcTable : dlcTable.toList.map BitVec.toNat =
    [0, 1, 2, 3, 4, 5, 6, 7, 8, 12, 16, 20, 24, 32, 48, 64] := rfl

/-- R101: `ByteCount` is the lookup in the table, which no 4-bit code leaves (R104). -/
theorem byteCount_toNat_eq_getD (d : DlcCode) :
    (byteCount d).toNat = (dlcTable.toList.map BitVec.toNat).getD d.toNat 0 := by
  have hd : d.toNat < (dlcTable.toList.map BitVec.toNat).length := by simpa using d.isLt
  rw [List.getD_eq_getElem _ _ hd, List.getElem_map, Vector.getElem_toList]
  rfl

end Sys2Proof

namespace Sys2Proof.Machine

/-- R101: `ByteCount` writes the result port and does nothing else. -/
theorem exec_byteCount (d : DlcCode) (s : State) :
    exec (.byteCount d) s = .next (s.withPort (.count (byteCount d))) := rfl

/-- Settles O1: the lookup is an access of a list, and that list is R100's. -/
theorem byteCountIsTheTable : Obligations.ByteCountIsTheTable := by
  intro d
  rw [byteCount_toNat_eq_getD, toNat_dlcTable]

/-- Settles O3: `State.withPort` replaces the port alone. -/
theorem byteCountCompletes : Obligations.ByteCountCompletes := by
  intro d s
  rw [exec_byteCount, State.withPort]

end Sys2Proof.Machine

/-! SUPPORT. The Header Codec (41_header_codec.md): the fields as slices of the header, and both
operations executed by themselves. -/

namespace Sys2Proof

/-- R73: the DLC field as a slice. -/
theorem headerDlc_eq_extractLsb' (h : Header) : headerDlc h = h.extractLsb' 11 4 := by
  apply BitVec.eq_of_toNat_eq
  rw [headerDlc_toNat, BitVec.extractLsb'_toNat, Nat.shiftRight_eq_div_pow]

/-- R110: bit 15 clear, then the DLC code, then the identifier. -/
theorem packHeader_eq_append (id : Ident) (d : DlcCode) : packHeader id d = 0#1 ++ d ++ id :=
  packHeader_eq_packetHeader id d

/-- R111: both fields are slices of the header. -/
theorem unpackHeader_eq_extractLsb' (h : Header) :
    unpackHeader h = (h.extractLsb' 0 11, h.extractLsb' 11 4) := by
  rw [unpackHeader, headerId_eq_extractLsb', headerDlc_eq_extractLsb']

/-- R113: both fields come back, because the packed header is a packet header with bit 15 clear. -/
theorem unpackHeader_packHeader (id : Ident) (d : DlcCode) :
    unpackHeader (packHeader id d) = (id, d) := by
  rw [packHeader_eq_packetHeader, unpackHeader, headerId_packetHeader, headerDlc_packetHeader]

end Sys2Proof

namespace Sys2Proof.Machine

/-- R110: `packHeader` writes the result port and does nothing else. -/
theorem exec_packHeader (id : Ident) (d : DlcCode) (s : State) :
    exec (.packHeader id d) s = .next (s.withPort (.header (packHeader id d))) := rfl

/-- R111: `unpackHeader` writes the result port and does nothing else. -/
theorem exec_unpackHeader (h : Header) (s : State) :
    exec (.unpackHeader h) s =
      .next (s.withPort (.fields (unpackHeader h).1 (unpackHeader h).2)) := rfl

/-- Settles O4: the pattern for all operands; the corner cases and examples are closed words. -/
theorem packHeaderPattern : Obligations.PackHeaderPattern :=
  ⟨packHeader_eq_append, by decide⟩

/-- Settles O5: the slices for all headers; the corner cases are closed words. -/
theorem unpackHeaderSlices : Obligations.UnpackHeaderSlices :=
  ⟨unpackHeader_eq_extractLsb', by decide⟩

/-- Settles O6: the two fields do not overlap, so each is read back as it was written. -/
theorem unpackAfterPack : Obligations.UnpackAfterPack :=
  unpackHeader_packHeader

/-- Settles O9: `State.withPort` replaces the port alone, by the pattern and by the two slices. -/
theorem headerCodecCompletes : Obligations.HeaderCodecCompletes := by
  constructor
  · intro id d s
    rw [exec_packHeader, packHeader_eq_append, State.withPort]
  · intro h s
    rw [exec_unpackHeader, unpackHeader_eq_extractLsb', State.withPort]

end Sys2Proof.Machine

/-! SUPPORT. OUTBOUND and the packets when they start (42_outbound_deserializer.md): the request's contract,
the state at the call of `submit`, and the frame. -/

namespace Sys2Proof.Machine

/-! ### The contract and the call -/

/-- The contract of the statements is the checks that OUTBOUND makes. -/
theorem requestPasses_iff_meetsContract {policy : Rsvd15Policy} {req : List Byte} :
    requestPasses policy req ↔ MeetsContract policy req := by
  simp only [requestPasses, MeetsContract, not_and, Bool.not_eq_true]
  exact and_comm

/-- `s` with the outbound agent at phase `p`. -/
def State.atOPhase (p : OPhase) (s : State) : State := { s with oPhase := p }

/-- An agent that is at phase `p` is not moved by going there. -/
theorem State.atOPhase_self {p : OPhase} {s : State} (h : s.oPhase = p) : s.atOPhase p = s := by
  subst h
  rfl

/-- An OUTBOUND that starts and whose request meets its contract settles the call of `submit` in the state
`submitted`, at phase O5. -/
theorem exec_eq_settle_submitted {i : Instr} {s : State} {req : List Byte} (hi : IsOutboundOf i s req)
    (hstart : s.outboundStarts) (hmeets : MeetsContract s.cfg.rsvd15 req)
    (hwf : Memory.wf s.txb = true) :
    exec i s =
      .next (settleSubmit (takeSubmitReply ((submitted req s).atOPhase (.o5 false)))) := by
  rw [exec_of_isOutboundOf hi, outboundOf_runs hstart (requestPasses_iff_meetsContract.mpr hmeets) hwf]
  rfl

/-- Settles O16: the answer `ok` ends the operation and changes nothing else. -/
theorem outboundCompletes : Obligations.OutboundCompletes := by
  intro i s req rs hi hf ho hmeets hwf hr
  rw [exec_eq_settle_submitted hi ⟨hf, ho⟩ hmeets hwf,
    takeSubmitReply_cons (s := (submitted req s).atOPhase (.o5 false)) hr]
  rfl

/-- Settles O17: the answer `fault` is `raise Fault(1)` in the state after the call. -/
theorem outboundSubmitFault : Obligations.OutboundSubmitFault := by
  intro i s req rs hi hf ho hmeets hwf hr
  rw [exec_eq_settle_submitted hi ⟨hf, ho⟩ hmeets hwf,
    takeSubmitReply_cons (s := (submitted req s).atOPhase (.o5 false)) hr]
  exact congrArg Host.Outcome.next (raiseFault_submit _)

/-- Settles O18: no answer listed and the answer `wait` both leave the call out. -/
theorem outboundHoldsInO5 : Obligations.OutboundHoldsInO5 := by
  intro i s req hi hf ho hmeets hwf
  rw [exec_eq_settle_submitted hi ⟨hf, ho⟩ hmeets hwf]
  constructor
  · intro hr
    rw [takeSubmitReply_nil (s := (submitted req s).atOPhase (.o5 false)) hr]
    rfl
  · intro rs hr
    rw [takeSubmitReply_cons (s := (submitted req s).atOPhase (.o5 false)) hr]
    rfl

/-- Settles O20: the contract is the checks, and a request that fails them stops at the first it fails. -/
theorem outboundRefusesBrokenRequests : Obligations.OutboundRefusesBrokenRequests := by
  intro i s req hi hf ho hbroken
  rw [← requestPasses_iff_meetsContract] at hbroken
  rw [exec_of_isOutboundOf hi, outboundOf, if_pos ⟨hf, ho⟩]
  exact finishO1_stops (s := startOutbound s) hbroken

/-- Settles O21: either condition contradicts what R131 asks for a start. -/
theorem outboundNotStarted : Obligations.OutboundNotStarted := by
  intro i s req hi hblocked
  rw [exec_of_isOutboundOf hi]
  refine outboundOf_not_started fun hstart => ?_
  obtain ⟨hf, ho⟩ := hstart
  exact hblocked.elim (· hf) (· ho)

/-! ### TXB and the frame -/

/-- The payload is the request from offset 2 on. -/
theorem getD_reqPayload {req : List Byte} {k : Nat} (hk : k < (byteCount (reqDlc req)).toNat) :
    (reqPayload req).getD k 0 = req.getD (2 + k) 0 := by
  simp only [List.getD_eq_getElem?_getD, reqPayload, List.getElem?_take_of_lt hk,
    List.getElem?_drop]

/-- TXB after the copy of O4 (R125). -/
theorem read_writeRange_reqPayload {m : Memory} (hwf : Memory.wf m = true) {policy : Rsvd15Policy}
    {req : List Byte} (hpass : requestPasses policy req) (k : Nat) :
    Memory.read (Memory.writeRange m 0 (reqPayload req)) k =
      if k < (byteCount (reqDlc req)).toNat then req.getD (2 + k) 0 else Memory.read m k := by
  rw [Memory.read_writeRange hwf, length_reqPayload hpass.2]
  by_cases hk : k < (byteCount (reqDlc req)).toNat
  · rw [if_pos ⟨Nat.zero_le k, by omega⟩, if_pos hk]
    exact getD_reqPayload hk
  · rw [if_neg (by omega), if_neg hk]

/-- What a started OUTBOUND leaves: the state at the call, but for what the answer can change. -/
theorem outboundOf_started_eq_next {req : List Byte} {s t : State} (hstart : s.outboundStarts)
    (h : outboundOf req s = .next t) :
    requestPasses s.cfg.rsvd15 req ∧
      ∃ f ev op sr, t = { atSubmit req (startOutbound s) with
        fault := f, events := ev, oPhase := op, submitReplies := sr } := by
  obtain ⟨hno, -⟩ | ⟨-, hpass, rfl⟩ := outboundOf_eq_next h
  · exact absurd hstart hno
  · exact ⟨hpass, settleSubmit_frame ((atSubmit req (startOutbound s)).emit _)⟩

/-- Settles O22: whatever `submit` answers, TXB is what O4 left. -/
theorem outboundCopiesExactlyN : Obligations.OutboundCopiesExactlyN := by
  intro i s t req hi hf ho hwf h
  rw [exec_of_isOutboundOf hi] at h
  obtain ⟨hpass, _, _, _, _, rfl⟩ := outboundOf_started_eq_next ⟨hf, ho⟩ h
  exact read_writeRange_reqPayload hwf hpass

/-- Settles O23: an OUTBOUND that starts writes the outbound side up to the call, and the answer of
`submit` reaches FAULT, the events, the phase and the list of answers. -/
theorem outboundFrame : Obligations.OutboundFrame := by
  intro i s t req hi h
  rw [exec_of_isOutboundOf hi] at h
  by_cases hstart : s.outboundStarts
  · obtain ⟨hpass, _, _, _, _, rfl⟩ := outboundOf_started_eq_next hstart h
    refine ⟨rfl, rfl, rfl, rfl, rfl, rfl, rfl, rfl, rfl, rfl, rfl, rfl, rfl, rfl, rfl, rfl,
      fun hwf k hk => ?_⟩
    exact (read_writeRange_reqPayload hwf hpass k).trans (if_neg (Nat.not_lt.mpr hk))
  · rw [outboundOf_not_started hstart] at h
    cases h
    exact ⟨rfl, rfl, rfl, rfl, rfl, rfl, rfl, rfl, rfl, rfl, rfl, rfl, rfl, rfl, rfl, rfl,
      fun _ _ _ => rfl⟩

/-! ### Header bit 15 -/

/-- Settling an answer of `submit` neither reads nor writes `o.hdr`. -/
theorem settleSubmit_oHdr (h : Header) (s : State) :
    settleSubmit (takeSubmitReply { s with oHdr := h }) =
      { settleSubmit (takeSubmitReply s) with oHdr := h } := by
  by_cases hr : s.submitReplies = []
  · rw [takeSubmitReply_nil hr, takeSubmitReply_nil (s := { s with oHdr := h }) hr]
    rfl
  · obtain ⟨r, rs, hr⟩ := List.exists_cons_of_ne_nil hr
    rw [takeSubmitReply_cons hr, takeSubmitReply_cons (s := { s with oHdr := h }) hr]
    cases r <;> rfl

/-- Under `ignore` two requests of the same fields and payload differ in `o.hdr` alone. -/
theorem outboundOf_oHdr {req req' : List Byte} {s t : State} (hpol : s.cfg.rsvd15 = .ignore)
    (hlen : req'.length = req.length) (hid : headerId (headerOf req') = headerId (headerOf req))
    (hdlc : reqDlc req' = reqDlc req) (hp : reqPayload req' = reqPayload req)
    (h : outboundOf req s = .next t) : ∃ w, outboundOf req' s = .next { t with oHdr := w } := by
  by_cases hstart : s.outboundStarts
  · obtain ⟨-, hl⟩ := (outboundOf_started_eq_next hstart h).1
    have hnot : ∀ b, ¬ (s.cfg.rsvd15 = .refuse ∧ b = true) := by simp [hpol]
    rw [outboundOf_eq hl, if_pos hstart, if_neg (hnot _)] at h
    cases h
    have hat : atSubmit req' (startOutbound s) =
        { atSubmit req (startOutbound s) with oHdr := headerOf req' } := by
      simp only [atSubmit, hid, hdlc, hp]
    rw [outboundOf_eq (by rw [hdlc, hlen]; exact hl), if_pos hstart, if_neg (hnot _), hid, hdlc, hat]
    exact ⟨headerOf req', congrArg Host.Outcome.next
      (settleSubmit_oHdr _ ((atSubmit req (startOutbound s)).emit _))⟩
  · rw [outboundOf_not_started hstart] at h ⊢
    cases h
    exact ⟨s.oHdr, rfl⟩

/-- Settles O26: the two packets have the same identifier, DLC code and payload. -/
theorem headerBit15IsIgnored : Obligations.HeaderBit15IsIgnored := by
  intro s t d id p hpol h
  rw [exec_packet] at h ⊢
  exact outboundOf_oHdr hpol (by simp) (by simp) (by simp [reqDlc]) (by simp [reqPayload, reqDlc]) h

end Sys2Proof.Machine

/-! SUPPORT. The steps that serve a host-send trigger and that end a hold in O5: the fetch against
OUTBOUND (42_outbound_deserializer.md rule R120), and the answer of `submit` (60_exceptions.md rule R185). -/

namespace Sys2Proof.Machine

/-! ### The hold in O5 -/

/-- An OUTBOUND that is part-way through goes on when no INBOUND is to be served. -/
theorem work_of_outbound {s : State} (hf : s.fault = .none) (hi : s.iPhase = .idle)
    (ht : s.rxTrigger = false) (ho : s.oPhase ≠ .idle) : s.work = .resumeOutbound := by
  simp [State.work, hf, hi, ht, ho]

/-- A step during a hold in O5 looks for the answer. -/
theorem step_of_heldSubmit {s : State} (ha : s.agenda = []) (hf : s.fault = .none)
    (hi : s.iPhase = .idle) (ht : s.rxTrigger = false) (ho : s.oPhase = .o5 true) :
    step s = .next (settleSubmit (takeSubmitReply s)) := by
  have hw : s.work = .resumeOutbound := work_of_outbound hf hi ht (by simp [ho])
  simp only [step_of_agenda_nil ha, runOperation, hw, resumeOutbound, ho, phaseO5, if_true]

/-- Settles O19: each answer settled in the held state; `wait` and no answer leave the phase as it is. -/
theorem heldSubmitIsAnswered : Obligations.HeldSubmitIsAnswered := by
  intro s rs ha hf hi ht ho
  rw [step_of_heldSubmit ha hf hi ht ho]
  refine ⟨fun hr => ?_, fun hr => ?_, fun hr => ?_, fun hr => ?_⟩
  · rw [takeSubmitReply_cons hr]
    rfl
  · rw [takeSubmitReply_cons hr]
    exact congrArg Host.Outcome.next (raiseFault_submit _)
  · rw [takeSubmitReply_cons hr]
    exact congrArg Host.Outcome.next (State.atOPhase_self (s := { s with submitReplies := rs }) ho)
  · rw [takeSubmitReply_nil hr]
    exact congrArg Host.Outcome.next (State.atOPhase_self ho)

/-! ### The fetch -/

/-- An idle block with a waiting request fetches it as its step. -/
theorem step_of_request {s : State} (ha : s.agenda = []) (hf : s.fault = .none)
    (hi : s.iPhase = .idle) (ht : s.rxTrigger = false) (ho : s.oPhase = .idle)
    (hh : s.hostSend = true) : step s = fetchAndExec s := by
  simp only [step_of_agenda_nil ha, runOperation, work_of_request hf hi ht ho hh]

/-- The fetch of a request that decodes is the execution of the packet. -/
theorem fetchAndExec_of_decode {s : State} {i : Instr} {rest : List Byte}
    (h : decodePacket s.cfg.rsvd15 s.request = .ok i rest) : fetchAndExec s = exec i s := by
  simp only [fetchAndExec, h]

/-- Settles O40: the step is the fetch, and the fetch adds nothing to the packet's meaning. -/
theorem stepRunsTheDecodedPacket : Obligations.StepRunsTheDecodedPacket := by
  intro s i rest ha hf hi ht ho hh hdec
  rw [step_of_request ha hf hi ht ho hh]
  exact fetchAndExec_of_decode hdec

/-- Settles O41: the packet's bytes are the first `2 + n` of the request, which are all that OUTBOUND
reads. -/
theorem fetchedPacketIsOutbound : Obligations.FetchedPacketIsOutbound := by
  intro s i rest _ hdec
  have hpass : requestPasses s.cfg.rsvd15 s.request := passes_of_decodePacket hdec
  have hlen : 2 + (byteCount (reqDlc s.request)).toNat ≤ s.request.length := hpass.2
  have heq := (decodePacket_passes hpass).symm.trans hdec
  rw [Decoded.ok.injEq] at heq
  obtain ⟨rfl, -⟩ := heq
  rw [exec_packet, packetBytes_of_request (by omega)]
  exact outboundOf_congr hlen (by simp only [List.length_take]; omega) (by simp) s

/-- The decoder rejects what OUTBOUND refuses, by the same checks in the same order (R187). -/
theorem decodePacket_stops {policy : Rsvd15Policy} {req : List Byte}
    (h : ¬ requestPasses policy req) :
    decodePacket policy req =
      if req.length < 2 then .reject .shortHeader
      else if policy = .refuse ∧ headerRsvd (headerOf req) = true then .reject .reservedBitSet
      else .reject .shortPayload := by
  match req, h with
  | [], _ => rfl
  | [_], _ => rfl
  | b0 :: b1 :: tl, h =>
    rw [if_neg (by simp)]
    by_cases hr : policy = .refuse ∧ headerRsvd (headerOf (b0 :: b1 :: tl)) = true
    · rw [if_pos hr]
      exact if_pos hr
    · have hshort : tl.length < (byteCount (reqDlc (b0 :: b1 :: tl))).toNat := by
        by_contra hc
        exact h ⟨hr, by simp only [List.length_cons]; omega⟩
      rw [if_neg hr]
      exact (if_neg hr).trans (if_pos hshort)

/-- A fetch that decodes nothing answers OUTBOUND's refusal. -/
theorem fetchAndExec_stops {s : State} (h : ¬ requestPasses s.cfg.rsvd15 s.request) :
    fetchAndExec s = finishO1 s.request (startOutbound s) := by
  rw [fetchAndExec, decodePacket_stops h, finishO1_stops (s := startOutbound s) h, startOutbound_cfg]
  split_ifs <;> rfl

/-- Settles O42: the decoder's rejection and OUTBOUND's refusal are the same. -/
theorem stepRefusesBrokenRequests : Obligations.StepRefusesBrokenRequests := by
  intro s ha hf hi ht ho hh hbroken
  rw [← requestPasses_iff_meetsContract] at hbroken
  calc step s
    _ = fetchAndExec s := step_of_request ha hf hi ht ho hh
    _ = finishO1 s.request (startOutbound s) := fetchAndExec_stops hbroken
    _ = outboundOf s.request s := (if_pos ⟨hf, ho⟩).symm

end Sys2Proof.Machine

/-! SUPPORT. An OUTBOUND taken phase by phase (60_exceptions.md rule R189). -/

namespace Sys2Proof.Machine

/-- Two continuations that agree on what is answered answer the same. -/
theorem andThen_congr {r : Answer} {f g : State → Answer} (h : ∀ t, r = .next t → f t = g t) :
    andThen r f = andThen r g := by
  cases r with
  | next t => exact h t rfl
  | fault e => rfl
  | refused e => rfl

/-! ### The phase that follows -/

theorem phaseO1_oPhase {req : List Byte} {s t : State} (h : phaseO1 req s = .next t) :
    t.oPhase = .o2 := by
  simp only [phaseO1] at h
  split_ifs at h
  cases h
  rfl

theorem phaseO3_oPhase {req : List Byte} {s t : State} (h : phaseO3 req s = .next t) :
    t.oPhase = .o4 0 := by
  simp only [phaseO3] at h
  split_ifs at h
  cases h
  rfl

theorem resumeOutbound_of_o2 {req : List Byte} {s : State} (h : s.oPhase = .o2) :
    resumeOutbound req s = finishO2 req s := by
  simp only [resumeOutbound, h]

theorem resumeOutbound_of_o4 {req : List Byte} {s : State} {k : Nat} (h : s.oPhase = .o4 k) :
    resumeOutbound req s = finishO4 req k s := by
  simp only [resumeOutbound, h]

/-! ### The copy of O4 -/

/-- What O4 still has to copy begins with the byte that one copy takes. -/
theorem take_drop_eq_cons {req : List Byte} {k n : Nat} (hk : k < n) (hn : 2 + n ≤ req.length) :
    (req.drop (2 + k)).take (n - k) =
      req.getD (2 + k) 0 :: (req.drop (2 + (k + 1))).take (n - (k + 1)) := by
  have hlt : 2 + k < req.length := by omega
  rw [List.drop_eq_getElem_cons hlt, show n - k = (n - (k + 1)) + 1 by omega, List.take_succ_cons,
    List.getD_eq_getElem _ _ hlt, Nat.add_assoc]

/-- One byte copy and the rest of O4 are the whole of O4. -/
theorem copyStep_then_resume (req : List Byte) (k : Nat) (s : State) :
    andThen (copyStep req k s) (resumeOutbound req) = finishO4 req k s := by
  by_cases hin : copyInBounds req s
  · by_cases hk : k < s.oN.toNat
    · simp only [copyStep, if_pos hin, if_pos hk, andThen_next]
      rw [resumeOutbound_of_o4 rfl]
      simp only [finishO4, phaseO4, copyInBounds, if_pos hin, take_drop_eq_cons hk hin.1,
        Memory.writeRange]
    · have hdone : s.oN.toNat - k = 0 := by omega
      simp only [copyStep, if_pos hin, if_neg hk, finishO4, phaseO4, hdone, List.take_zero,
        Memory.writeRange, andThen_next]
      rfl
  · simp only [copyStep, finishO4, phaseO4, if_neg hin, andThen_fault]

/-- Settles O55: each phase hands over to the one whose turn the rest begins with; O4 is cut between its
byte copies. -/
theorem outboundPhasesMakeTheWhole : Obligations.OutboundPhasesMakeTheWhole := by
  intro req s h5
  rcases hp : s.oPhase with _ | _ | _ | _ | k | c
  case idle => simp only [outboundPhase, hp, andThen_next]
  case o1 =>
    simp only [outboundPhase, resumeOutbound.eq_def req s, hp]
    exact andThen_congr fun t ht => resumeOutbound_of_o2 (phaseO1_oPhase ht)
  case o2 =>
    simp only [outboundPhase, resumeOutbound.eq_def req s, hp]
    rfl
  case o3 =>
    simp only [outboundPhase, resumeOutbound.eq_def req s, hp]
    exact andThen_congr fun t ht => resumeOutbound_of_o4 (phaseO3_oPhase ht)
  case o4 =>
    rw [resumeOutbound_of_o4 hp]
    simp only [outboundPhase, hp]
    exact copyStep_then_resume req k s
  case o5 => exact absurd hp (h5 c)

end Sys2Proof.Machine

/-! SUPPORT. INBOUND when it starts (43_inbound_serializer.md): the header that I1a and I1b compose, the state
at the call of `transmit`, the answers, and the operation taken phase by phase. -/

namespace Sys2Proof

/-! ### The two header bytes (R141) -/

theorem idLowByte_eq_extractLsb' (id : Ident) : idLowByte id = id.extractLsb' 0 8 := by
  apply BitVec.eq_of_toNat_eq
  simp [idLowByte]

/-- The upper three bits of the identifier, with five zero bits where the DLC code goes. -/
theorem idHighByte_eq_append (id : Ident) : idHighByte id = 0#5 ++ id.extractLsb' 8 3 := by
  have hid := id.isLt
  apply BitVec.eq_of_toNat_eq
  rw [BitVec.toNat_append, BitVec.extractLsb'_toNat, idHighByte, BitVec.toNat_setWidth,
    BitVec.toNat_ushiftRight, Nat.shiftRight_eq_div_pow]
  simp only [BitVec.toNat_ofNat, Nat.zero_mod, Nat.zero_shiftLeft, Nat.zero_or]
  omega

/-! ### A sent frame read as a request (R156) -/

theorem length_serialize (id : Ident) (d : DlcCode) (p : List Byte) :
    (serialize id d p).length = 2 + p.length := by
  rw [← packetBytes_zero_eq_serialize, length_packetBytes]

/-- `deserialize` gives back the frame that `serialize` wrote. -/
theorem deserialize_serialize {d : DlcCode} {p : List Byte} (hlen : p.length = (byteCount d).toNat)
    (id : Ident) : deserialize (serialize id d p) = (id, d, p) := by
  rw [← packetBytes_zero_eq_serialize]
  simp [deserialize, ← hlen]

end Sys2Proof

namespace Sys2Proof.Machine

/-! ### The header in RXB -/

theorem read_phaseI1a_rxb {s : State} (hwf : Memory.wf s.rxb = true) (a : Nat) :
    Memory.read (phaseI1a s).rxb a =
      if a = 0 then idLowByte s.iId else if a = 1 then idHighByte s.iId
      else Memory.read s.rxb a := by
  rw [phaseI1a_rxb, Memory.read_write (Memory.wf_write hwf _ _), Memory.read_write hwf]
  rcases a with _ | _ | a <;> rfl

/-- I1a and I1b one after the other leave the composed RXB. -/
theorem phaseI1b_phaseI1a_rxb (s : State) : (phaseI1b (phaseI1a s)).rxb = composedRxb s := rfl

/-- Settles O27: I1a is two writes and I1b one, and together they are the write of the packed header. -/
theorem inboundComposesTheHeader : Obligations.InboundComposesTheHeader := by
  intro s hwf
  have hwf1a : Memory.wf (phaseI1a s).rxb = true := Memory.wf_write (Memory.wf_write hwf _ _) _ _
  refine ⟨fun a => ?_, fun a => ?_, ?_, fun a ha => ?_⟩
  · rw [read_phaseI1a_rxb hwf, idLowByte_eq_extractLsb', idHighByte_eq_append]
  · exact Memory.read_write hwf1a 1 _ a
  · rw [phaseI1b_phaseI1a_rxb, composedRxb_eq hwf]
    exact Memory.readRange_writeRange hwf 0 (hdrBytes (packHeader s.iId s.iDlc))
  · rw [phaseI1b_phaseI1a_rxb, read_composedRxb_of_two_le hwf ha]

/-! ### The call and its answers -/

/-- `s` with the inbound agent at phase `p`. -/
def State.atIPhase (p : IPhase) (s : State) : State := { s with iPhase := p }

/-- The state at the call of `transmit`, once the call is out, is the one the statements name. -/
theorem atTransmit_emit_eq {s : State} (hwf : Memory.wf s.rxb = true) :
    (atTransmit s).emit (.transmit
        (Memory.readRange (composedRxb s) 0 (packetLength s.iDlc).toNat) (packetLength s.iDlc)) =
      (transmitted s).atIPhase (.i3 false) := by
  rw [packetLength_toNat, readRange_composedRxb hwf, atTransmit, composedRxb_eq hwf]
  rfl

/-- An INBOUND that starts settles the call of `transmit` in the state `transmitted`, at phase I3. -/
theorem exec_inbound_eq_settle_transmitted {s : State} (hstart : s.inboundStarts)
    (hwf : Memory.wf s.rxb = true) :
    exec .inbound s = afterTransmit (settleTransmit
      (takeTransmitReply ((transmitted s).atIPhase (.i3 false)))) := by
  rw [← atTransmit_emit_eq hwf]
  exact (execInbound_eq s).trans (if_pos hstart)

/-- Settles O28: after the answer `ok` come I4 and I5. -/
theorem inboundCompletes : Obligations.InboundCompletes := by
  intro s rs hf hi hwf hr
  rw [exec_inbound_eq_settle_transmitted ⟨hf, hi⟩ hwf,
    takeTransmitReply_cons (s := (transmitted s).atIPhase (.i3 false)) hr, afterTransmit_settle_ok]
  rfl

/-- Settles O29: the answer `fault` is `raise Fault(2)` in the state after the call. -/
theorem inboundTransmitFault : Obligations.InboundTransmitFault := by
  intro s rs hf hi hwf hr
  rw [exec_inbound_eq_settle_transmitted ⟨hf, hi⟩ hwf,
    takeTransmitReply_cons (s := (transmitted s).atIPhase (.i3 false)) hr,
    afterTransmit_settle_fault, raiseFault_transmit]
  rfl

/-- Settles O32: either condition contradicts what R150 asks for a start. -/
theorem inboundNotStarted : Obligations.InboundNotStarted := by
  intro s hblocked
  refine if_neg fun hstart => ?_
  obtain ⟨hf, hi⟩ := hstart
  exact hblocked.elim (· hf) (· hi)

/-! ### The delivered frame -/

/-- `s` after `deliver(id, d, p)` (R162). -/
def delivered (id : Ident) (d : DlcCode) (p : List Byte) (s : State) : State :=
  { s with
    iId := id
    iDlc := d
    rxb := deliverBytes d p s.spill s.rxb
    spill := []
    rxArmed := false
    rxTrigger := decide (s.fault = .none) }

theorem exec_deliver_eq_next {id : Ident} {d : DlcCode} {p : List Byte} {s t : State} :
    exec (.deliver id d p) s = .next t ↔
      s.rxArmed = true ∧ p.length = (byteCount d).toNat ∧ t = delivered id d p s :=
  execDeliver_eq_next

/-- An INBOUND of a delivered frame calls `transmit` with that frame's packet, whatever RXB held (R151). -/
theorem transmitted_delivered_events {s : State} (hwf : Memory.wf s.rxb = true) {d : DlcCode}
    {p : List Byte} (hlen : p.length = (byteCount d).toNat) (id : Ident) :
    (transmitted (delivered id d p s)).events =
      s.events ++ [.transmit (serialize id d p) (packetLength d)] := by
  simp only [transmitted, delivered, readRange_deliverBytes hwf hlen]

/-- What follows the call of `transmit` only adds events. -/
theorem afterTransmit_settle_events {s t : State} (hf : s.fault = .none)
    (h : afterTransmit (settleTransmit (takeTransmitReply s)) = .next t) :
    ∃ new, t.events = s.events ++ new := by
  have hq := takeTransmitReply_quiet s
  obtain ⟨-, new, he, -⟩ | ⟨-, -, before, he, -⟩ :=
    hq.then_outcome (afterTransmit_settle_outcome (hq.1.trans hf) h)
  · exact ⟨new, he⟩
  · exact ⟨_, he⟩

/-- Whatever `transmit` answers, the events up to its call are kept. -/
theorem exec_inbound_events {s t : State} (hstart : s.inboundStarts) (hwf : Memory.wf s.rxb = true)
    (h : exec .inbound s = .next t) : ∃ after, t.events = (transmitted s).events ++ after := by
  rw [exec_inbound_eq_settle_transmitted hstart hwf] at h
  exact afterTransmit_settle_events (s := (transmitted s).atIPhase (.i3 false)) hstart.1 h

/-- Settles O34: the payload stands in RXB where INBOUND reads it, and the call's event is kept. -/
theorem inboundSendsTheDeliveredFrame : Obligations.InboundSendsTheDeliveredFrame := by
  intro s t u id d p hwf hf hi ht hu
  obtain ⟨-, hlen, rfl⟩ := exec_deliver_eq_next.mp ht
  obtain ⟨after, he⟩ := exec_inbound_events (s := delivered id d p s) ⟨hf, hi⟩
    (wf_deliverBytes hwf d p s.spill) hu
  exact ⟨after, by simp [he, transmitted_delivered_events hwf hlen]⟩

/-- Settles O54: a frame in the block means that the collaborator is not armed, so its move is dropped. -/
theorem frameInFlightIsStable : Obligations.FrameInFlightIsStable := by
  intro s id d p spill rest h hframe hhead
  have hunarmed : s.rxArmed = false := h.oneFrame.1 hframe
  rw [step_of_agenda_cons hhead]
  exact if_neg (by simp [hunarmed])

/-! ### Phase by phase (R189) -/

/-- Once `transmit` has answered, the rest of INBOUND is what follows the answer. -/
theorem resumeInbound_settleTransmit {r : Reply × State} (h : r.1 ≠ .wait) :
    resumeInbound (settleTransmit r) = afterTransmit (settleTransmit r) := by
  obtain ⟨_ | _ | _, s⟩ := r
  case ok => rfl
  case fault => rfl
  case wait => exact absurd rfl h

/-- I3 hands over to I4, or to rest after a fault, when its look for the answer finds one. -/
theorem phaseI3_then_resume {called : Bool} {s : State} {r : Reply} {rs : List Reply}
    (hr : s.transmitReplies = r :: rs) (hne : r ≠ .wait) :
    andThen (phaseI3 called s) resumeInbound = finishI3 called s := by
  refine andThen_congr fun t ht => ?_
  obtain rfl | rfl := phaseI3_eq_next ht
  · exact resumeInbound_settleTransmit (by rwa [takeTransmitReply_cons hr])
  · exact resumeInbound_settleTransmit
      (by rwa [callTransmit, takeTransmitReply_cons (s := s.emit _) hr])

/-- Settles O56: each phase hands over to the one whose turn the rest begins with. -/
theorem inboundPhasesMakeTheWhole : Obligations.InboundPhasesMakeTheWhole := by
  intro s hanswer
  simp only [inboundPhase, resumeInbound.eq_def s]
  rcases hp : s.iPhase with _ | _ | _ | _ | c | _ | _
  case i3 =>
    obtain ⟨r, rs, hr, hne⟩ := hanswer.resolve_left fun hno => hno c hp
    exact phaseI3_then_resume hr hne
  case idle => simp only [andThen_next, resumeInbound, hp]
  case i1a => rfl
  case i1b => rfl
  case i2 => rfl
  case i4 => rfl
  case i5 => rfl

/-! ### The loopback (R156) -/

/-- A sent frame presented as a request is submitted as it was. -/
theorem outbound_of_presented_serialize {u : State} (hstart : u.outboundStarts)
    (hwf : Memory.wf u.txb = true) (hcap : 66 ≤ u.cfg.inCap) {d : DlcCode} {p : List Byte}
    (hlen : p.length = (byteCount d).toNat) (id : Ident) {rs : List Reply}
    (hr : u.submitReplies = .ok :: rs) :
    ∃ v w, presentRequest (serialize id d p) u = .next v ∧ exec .outbound v = .next w ∧
      w.events = u.events ++ [.submit id d p] := by
  have hfits : (serialize id d p).length ≤ u.cfg.inCap := by
    have hbc := byteCount_le d
    rw [length_serialize]
    omega
  have hmeets : MeetsContract u.cfg.rsvd15 (serialize id d p) := by
    rw [← requestPasses_iff_meetsContract, ← packetBytes_zero_eq_serialize]
    exact outboundOf_packet_passes hlen (.inr rfl)
  obtain ⟨hf, ho⟩ := hstart
  refine ⟨_, _, if_pos hfits, outboundCompletes .outbound _ (serialize id d p) rs
    (.inl ⟨rfl, (State.request_of_ofBytes _ _ rfl rfl).symm⟩) hf ho hmeets hwf hr, ?_⟩
  simp only [submitted, dlcOf, deserialize_serialize hlen]

/-- Settles O60: INBOUND completes with the delivered frame's packet, which OUTBOUND takes apart again. -/
theorem loopbackReturnsTheFrame : Obligations.LoopbackReturnsTheFrame := by
  intro s id d p rs rs' h hf hi ho harmed hcap hlen htr hsr
  have hwf := h.buffers.rxbWf
  have hin := inboundCompletes (delivered id d p s) rs hf hi (wf_deliverBytes hwf d p s.spill) htr
  obtain ⟨v, w, hv, hw, he⟩ := outbound_of_presented_serialize
    (u := { transmitted (delivered id d p s) with
      iPhase := .idle
      transmitReplies := rs
      diag := !s.diag
      rxArmed := true
      events := (transmitted (delivered id d p s)).events ++ [.toggle, .rearm] })
    ⟨hf, ho⟩ h.buffers.txbWf hcap hlen id hsr
  refine ⟨_, _, v, w, serialize id d p, exec_deliver_eq_next.mpr ⟨harmed, hlen, rfl⟩, hin, ?_, hv,
    hw, he⟩
  simp [transmitted_delivered_events hwf hlen]

end Sys2Proof.Machine

/-! SUPPORT. The boundary operations executed by themselves (44_collaborator_ops.md): the bytes that `deliver`
leaves in RXB, the calls with their answer, and `fault_handler` by its code. -/

namespace Sys2Proof.Machine

/-! ### RXB after `deliver` (R162) -/

/-- `deliver` does not write bytes 0 and 1. -/
theorem read_deliverBytes_of_lt_two {m : Memory} (hwf : Memory.wf m = true) {d : DlcCode}
    {p : List Byte} (hlen : p.length = (byteCount d).toNat) (spill : List Byte) {a : Nat}
    (ha : a < 2) : Memory.read (deliverBytes d p spill m) a = Memory.read m a :=
  (read_deliverBytes hwf hlen spill a).trans (if_pos ha)

/-- Above the payload, inside RXB: the spill as far as it goes, then what RXB held (log 8). -/
theorem read_deliverBytes_above_payload {m : Memory} (hwf : Memory.wf m = true) {d : DlcCode}
    {p : List Byte} (hlen : p.length = (byteCount d).toNat) (spill : List Byte) {k : Nat}
    (hk : k < payloadMax - p.length) :
    Memory.read (deliverBytes d p spill m) (2 + p.length + k) =
      spill.getD k (Memory.read m (2 + p.length + k)) := by
  rw [read_deliverBytes hwf hlen, if_neg (by omega), if_neg (by omega), List.length_take]
  by_cases hspill : k < spill.length
  · rw [if_pos (by omega), Nat.add_sub_cancel_left, List.getD_eq_getElem _ _ (by simp; omega),
      List.getElem_take, List.getD_eq_getElem _ _ hspill]
  · rw [if_neg (by omega), List.getD_eq_default _ _ (by omega)]

/-- The spill ends with RXB. -/
theorem read_deliverBytes_of_bufCap_le {m : Memory} (hwf : Memory.wf m = true) {d : DlcCode}
    {p : List Byte} (hlen : p.length = (byteCount d).toNat) (spill : List Byte) {a : Nat}
    (ha : bufCap ≤ a) : Memory.read (deliverBytes d p spill m) a = Memory.read m a := by
  have hn := byteCount_le d
  simp only [bufCap] at ha
  rw [read_deliverBytes hwf hlen, if_neg (by omega), if_neg (by omega),
    if_neg (by simp only [List.length_take, payloadMax]; omega)]

/-- Settles O35: the next state holds `deliverBytes`, read offset range by offset range. -/
theorem deliverCompletes : Obligations.DeliverCompletes := by
  intro s id d p harmed hlen hwf
  refine ⟨deliverBytes d p s.spill s.rxb, exec_deliver_eq_next.mpr ⟨harmed, hlen, rfl⟩,
    read_deliverBytes_of_lt_two hwf hlen _ (by decide),
    read_deliverBytes_of_lt_two hwf hlen _ (by decide),
    readRange_deliverBytes hwf hlen _, fun k hk => ?_,
    fun a ha => read_deliverBytes_of_bufCap_le hwf hlen _ ha⟩
  rw [← hlen] at hk ⊢
  exact read_deliverBytes_above_payload hwf hlen _ hk

/-! ### The events without an answer (R164, R167) -/

/-- Settles O36: `doRearm` and `doToggle` each write one field and emit. -/
theorem rearmAndToggleComplete : Obligations.RearmAndToggleComplete :=
  fun _ => ⟨rfl, rfl⟩

/-! ### The calls (R160, R166) -/

/-- The look for the answer of `submit` takes the first one listed; none listed is `wait`. -/
theorem takeSubmitReply_eq (s : State) :
    takeSubmitReply s =
      (s.submitReplies.headD .wait, { s with submitReplies := s.submitReplies.tail }) := by
  rcases hr : s.submitReplies with _ | ⟨r, rs⟩
  · rw [takeSubmitReply_nil hr, List.headD_nil, List.tail_nil, ← hr]
  · exact takeSubmitReply_cons hr

/-- The look for the answer of `transmit` takes the first one listed; none listed is `wait`. -/
theorem takeTransmitReply_eq (s : State) :
    takeTransmitReply s =
      (s.transmitReplies.headD .wait, { s with transmitReplies := s.transmitReplies.tail }) := by
  rcases hr : s.transmitReplies with _ | ⟨r, rs⟩
  · rw [takeTransmitReply_nil hr, List.headD_nil, List.tail_nil, ← hr]
  · exact takeTransmitReply_cons hr

/-- A packet length and as many bytes are within the contract of `transmit`. -/
theorem bufferFits_packetLength {b : List Byte} {d : DlcCode}
    (hlen : b.length = (packetLength d).toNat) : bufferFits b (packetLength d) = true := by
  simp [bufferFits, isPacketLength_packetLength, hlen]

/-- Settles O37: each call is its event and then the look for its answer, which goes to the port. -/
theorem callsComplete : Obligations.CallsComplete := by
  refine ⟨fun s id d p hlen => execSubmit_eq_next.mpr ⟨hlen, ?_⟩, ?_⟩
  · rw [callSubmit, takeSubmitReply_eq]
    rfl
  · rintro s b _ ⟨d, rfl⟩ hlen
    refine execTransmit_eq_next.mpr ⟨bufferFits_packetLength hlen, ?_⟩
    rw [callTransmit, takeTransmitReply_eq]
    rfl

/-! ### The fault handler (R168) -/

theorem exec_faultHandler_of_codeIsSent {c : BitVec 2} (hc : codeIsSent c = true) (s : State) :
    exec (.faultHandler c) s = .next (callFaultHandler c s) :=
  if_pos hc

theorem exec_faultHandler_of_not_codeIsSent {c : BitVec 2} (hc : codeIsSent c = false)
    (s : State) : exec (.faultHandler c) s = .refused .faultCodeReserved :=
  if_neg (Bool.eq_false_iff.mp hc)

/-- Settles O39: 1 and 2 are the codes that are sent, and each ends the agent that raises it. -/
theorem faultHandlerCompletes : Obligations.FaultHandlerCompletes := fun s =>
  ⟨exec_faultHandler_of_codeIsSent rfl s, exec_faultHandler_of_codeIsSent rfl s,
    exec_faultHandler_of_not_codeIsSent rfl s, exec_faultHandler_of_not_codeIsSent rfl s⟩

end Sys2Proof.Machine

/-! SUPPORT. Faults, holds and preemption (60_exceptions.md): a call of `transmit` that is not answered, the block
while FAULT is set, and an OUTBOUND that INBOUND preempts before its call. -/

namespace Sys2Proof.Machine

/-! ### The hold in I3 (R185) -/

/-- An agent that is at phase `p` is not moved by going there. -/
theorem State.atIPhase_self {p : IPhase} {s : State} (h : s.iPhase = p) : s.atIPhase p = s := by
  subst h
  rfl

/-- Settles O30: the call's event is out, and neither `wait` nor an empty list settles more than the phase. -/
theorem inboundHoldsInI3 : Obligations.InboundHoldsInI3 := by
  intro s hf hi hwf
  rw [exec_inbound_eq_settle_transmitted ⟨hf, hi⟩ hwf]
  refine ⟨fun hr => ?_, fun rs hr => ?_⟩
  · rw [takeTransmitReply_nil (s := (transmitted s).atIPhase (.i3 false)) hr,
      afterTransmit_settle_wait]
    rfl
  · rw [takeTransmitReply_cons (s := (transmitted s).atIPhase (.i3 false)) hr,
      afterTransmit_settle_wait]
    rfl

/-- An INBOUND that is part-way through goes on, whatever else waits. -/
theorem work_of_inbound {s : State} (hf : s.fault = .none) (hi : s.iPhase ≠ .idle) :
    s.work = .resumeInbound := by
  simp [State.work, hf, hi]

/-- A step during a hold in I3 looks for the answer. -/
theorem step_of_heldTransmit {s : State} (ha : s.agenda = []) (hf : s.fault = .none)
    (hi : s.iPhase = .i3 true) :
    step s = afterTransmit (settleTransmit (takeTransmitReply s)) := by
  have hw : s.work = .resumeInbound := work_of_inbound hf (by simp [hi])
  simp only [step_of_agenda_nil ha, runOperation, hw, resumeInbound, hi, finishI3, phaseI3, if_true,
    andThen_next]

/-- Settles O31: each answer settled in the held state; `wait` and no answer leave the phase as it is. -/
theorem heldTransmitIsAnswered : Obligations.HeldTransmitIsAnswered := by
  intro s rs ha hf hi
  rw [step_of_heldTransmit ha hf hi]
  refine ⟨fun hr => ?_, fun hr => ?_, fun hr => ?_, fun hr => ?_⟩
  · rw [takeTransmitReply_cons hr, afterTransmit_settle_ok]
  · rw [takeTransmitReply_cons hr, afterTransmit_settle_fault, raiseFault_transmit]
  · rw [takeTransmitReply_cons hr, afterTransmit_settle_wait]
    exact congrArg Host.Outcome.next (State.atIPhase_self (s := { s with transmitReplies := rs }) hi)
  · rw [takeTransmitReply_nil hr, afterTransmit_settle_wait]
    exact congrArg Host.Outcome.next (State.atIPhase_self hi)

/-! ### Priority (R187) -/

/-- A delivered frame is served before anything of the outbound side. -/
theorem work_of_frame {s : State} (hf : s.fault = .none) (hi : s.iPhase = .idle)
    (ht : s.rxTrigger = true) : s.work = .startInbound := by
  simp [State.work, hf, hi, ht]

/-- Settles O43: the scheduler asks for the bus-receive trigger before it looks at the outbound side. -/
theorem stepServesInboundFirst : Obligations.StepServesInboundFirst := by
  intro s ha hf hi ht
  simp only [step_of_agenda_nil ha, runOperation, work_of_frame hf hi ht]

/-! ### While FAULT is set (R184) -/

/-- Settles O48: of everything a step can do, the moves of the block and the arming ask for FAULT = 0; a
request and a frame write none of the fields named. -/
theorem faultedBlockStandsStill : Obligations.FaultedBlockStandsStill := by
  intro s t hfault hnoreset h
  cases step_move h with
  | block _ hf => exact absurd hf hfault
  | arms _ hmay => exact absurd hmay.1 hfault
  | resets rest u hhead => exact absurd hhead (hnoreset u rest)
  | nothing _ h | presents _ _ _ _ h | delivers _ _ _ _ _ _ _ h =>
    subst h
    exact ⟨rfl, rfl, rfl, rfl, rfl, rfl, rfl, rfl, rfl, rfl, rfl, rfl⟩

/-! ### Preemption before the call (R189, R190) -/

/-- The outbound agent is inside an operation that has not come to O5. -/
def State.BeforeCall (s : State) : Prop := s.oPhase ≠ .idle ∧ ∀ c, s.oPhase ≠ .o5 c

/-- The answer of `submit` ends OUTBOUND or holds it in O5. -/
theorem not_beforeCall_settleSubmit (r : Reply × State) : ¬ (settleSubmit r).BeforeCall := by
  rintro ⟨hidle, h5⟩
  obtain ⟨_ | _ | _, s⟩ := r
  case ok => exact hidle rfl
  case fault => exact hidle rfl
  case wait => exact h5 true rfl

/-- No phase leads back before the call. -/
theorem outboundPhase_beforeCall {req : List Byte} {s t : State} (h : outboundPhase req s = .next t)
    (ht : t.BeforeCall) : s.BeforeCall := by
  refine ⟨fun hidle => ?_, fun c h5 => ?_⟩
  · simp only [outboundPhase, hidle] at h
    cases h
    exact ht.1 hidle
  · simp only [outboundPhase, h5] at h
    obtain rfl | rfl := phaseO5_eq_next h
    · exact not_beforeCall_settleSubmit _ ht
    · exact not_beforeCall_settleSubmit _ ht

theorem outboundPhases_beforeCall {k : Nat} {req : List Byte} {s t : State}
    (h : outboundPhases k req s = .next t) (ht : t.BeforeCall) : s.BeforeCall := by
  induction k generalizing s with
  | zero =>
    cases h
    exact ht
  | succ k ih =>
    obtain ⟨s', h1, hk⟩ := andThen_eq_next.mp h
    exact outboundPhase_beforeCall h1 (ih hk)

/-- Phases before the call make the same moves on the outbound side whatever the rest of the state is. -/
theorem outboundPhases_withOutbound {k : Nat} {req : List Byte} {s t : State} (r : State)
    (hcfg : r.cfg = s.cfg) (h : outboundPhases k req s = .next t) (ht : t.BeforeCall) :
    outboundPhases k req (r.withOutbound s) = .next (r.withOutbound t) := by
  induction k generalizing s with
  | zero =>
    cases h
    rfl
  | succ k ih =>
    have h5 := (outboundPhases_beforeCall h ht).2
    obtain ⟨s', h1, hk⟩ := andThen_eq_next.mp h
    have hcfg' : s'.cfg = s.cfg := (outboundPhase_run h1).cfg_eq
    simp only [outboundPhases, outboundPhase_withOutbound r h5 hcfg, h1, andThen_next]
    exact ih (hcfg.trans hcfg'.symm) hk

/-- An OUTBOUND cut after any number of phases before its call, and taken up again, is the uncut one. -/
theorem outboundPhases_then_resume {k : Nat} {req : List Byte} {s t : State}
    (h : outboundPhases k req s = .next t) (ht : t.BeforeCall) :
    resumeOutbound req t = resumeOutbound req s := by
  induction k generalizing s with
  | zero =>
    cases h
    rfl
  | succ k ih =>
    have h5 := (outboundPhases_beforeCall h ht).2
    obtain ⟨s', h1, hk⟩ := andThen_eq_next.mp h
    calc resumeOutbound req t
      _ = resumeOutbound req s' := ih hk
      _ = andThen (outboundPhase req s) (resumeOutbound req) := by rw [h1, andThen_next]
      _ = resumeOutbound req s := outboundPhasesMakeTheWhole req s h5

/-- An INBOUND that answers a next state leaves the outbound side as it was. -/
theorem execInbound_keeps_outbound {s u : State} (h : execInbound s = .next u) :
    u = u.withOutbound s := by
  have heq := execInbound_withOutbound s s
  rw [show s.withOutbound s = s from rfl, h] at heq
  exact Host.Outcome.next.inj heq

/-- It leaves the request in IN as it was, too. -/
theorem execInbound_request {s u : State} (h : execInbound s = .next u) : u.request = s.request := by
  obtain ⟨-, -, hinb, hinLen, -⟩ := inboundFrame s u h
  rw [State.request, State.request, hinb, hinLen]

/-- Settles O58: INBOUND and the phases before the call work on different sides of the state, so the cut
OUTBOUND goes on as one that starts after INBOUND. -/
theorem preemptionEqualsAtomicOrder : Obligations.PreemptionEqualsAtomicOrder := by
  intro k s u v _ ho _ hu hfu _ hv hidle h5
  replace hu : execInbound s = .next u := hu
  have hbefore : v.BeforeCall := ⟨hidle, h5⟩
  have hsv : v = s.withOutbound v := by
    have heq := outboundPhases_withOutbound (startOutbound s) rfl hv hbefore
    rw [show (startOutbound s).withOutbound (startOutbound s) = startOutbound s from rfl, hv] at heq
    exact Host.Outcome.next.inj heq
  have huo : u = u.withOutbound s := execInbound_keeps_outbound hu
  have hcfg : u.cfg = s.cfg := exec_cfg (i := .inbound) hu
  have hstart : startOutbound u = u.withOutbound (startOutbound s) :=
    congrArg startOutbound huo
  have hphases : outboundPhases k s.request (startOutbound u) = .next (u.withOutbound v) := by
    rw [hstart]
    exact outboundPhases_withOutbound u hcfg hv hbefore
  have hpreempt : execInbound v = .next (u.withOutbound v) := by
    rw [hsv, execInbound_withOutbound, hu, andThen_next]
    rfl
  have hmayStart : u.outboundStarts := ⟨hfu, (congrArg State.oPhase huo).trans ho⟩
  calc andThen (execInbound v) (resumeOutbound s.request)
    _ = resumeOutbound s.request (u.withOutbound v) := by rw [hpreempt, andThen_next]
    _ = resumeOutbound s.request (startOutbound u) := outboundPhases_then_resume hphases hbefore
    _ = resumeOutbound u.request (startOutbound u) := by rw [execInbound_request hu]
    _ = outboundOf u.request u := (if_pos hmayStart).symm

end Sys2Proof.Machine

/-! SUPPORT. What follows from the table and from the header pattern: order and pieces of `ByteCount` (R102, R103),
the header's bytes (R112), and the directions back, from a header (R114) and from a request (R156). -/

namespace Sys2Proof

/-! ### The table (R102, R103) -/

/-- The table is strictly increasing. -/
theorem byteCount_toNat_lt :
    ∀ {d e : DlcCode}, d.toNat < e.toNat → (byteCount d).toNat < (byteCount e).toNat := by
  decide

theorem byteCount_toNat_le {d e : DlcCode} (h : d.toNat ≤ e.toNat) :
    (byteCount d).toNat ≤ (byteCount e).toNat := by
  obtain hlt | heq := h.lt_or_eq
  · exact (byteCount_toNat_lt hlt).le
  · rw [BitVec.eq_of_toNat_eq heq]

theorem byteCount_injective : Function.Injective byteCount := by
  intro d e h
  have hnat : (byteCount d).toNat = (byteCount e).toNat := congrArg BitVec.toNat h
  obtain hlt | heq | hgt := Nat.lt_trichotomy d.toNat e.toNat
  · exact absurd hnat (byteCount_toNat_lt hlt).ne
  · exact BitVec.eq_of_toNat_eq heq
  · exact absurd hnat (byteCount_toNat_lt hgt).ne'

theorem byteCount_toNat_of_le_eight :
    ∀ d : DlcCode, d.toNat ≤ 8 → (byteCount d).toNat = d.toNat := by
  decide

theorem byteCount_toNat_of_le_twelve :
    ∀ d : DlcCode, 9 ≤ d.toNat → d.toNat ≤ 12 → (byteCount d).toNat = 8 + 4 * (d.toNat - 8) := by
  decide

theorem byteCount_toNat_of_thirteen_le :
    ∀ d : DlcCode, 13 ≤ d.toNat → (byteCount d).toNat = 16 * (d.toNat - 11) := by
  decide

/-- Of the counts 0 to 64, the table lacks all but its sixteen entries. -/
theorem length_counts_not_in_table :
    ((List.range 65).filter fun n => decide (∀ d : DlcCode, (byteCount d).toNat ≠ n)).length =
      49 := by
  decide

/-! ### The bytes of a header (R112) -/

theorem hdrBytes_eq_extractLsb' (h : Header) :
    hdrBytes h = [h.extractLsb' 0 8, h.extractLsb' 8 8] := by
  rw [hdrBytes, BitVec.setWidth_eq_extractLsb' (by decide),
    BitVec.setWidth_ushiftRight_eq_extractLsb]

/-- The slices of a header, put together again. -/
theorem hdrOfBytes_extractLsb' (h : Header) :
    hdrOfBytes (h.extractLsb' 0 8) (h.extractLsb' 8 8) = h := by
  rw [← BitVec.setWidth_eq_extractLsb' (by decide), ← BitVec.setWidth_ushiftRight_eq_extractLsb,
    hdrOfBytes_split]

/-- The upper three bits of the identifier, widened to a byte. -/
theorem idHighByte_eq_setWidth (id : Ident) : idHighByte id = (id.extractLsb' 8 3).setWidth 8 := by
  apply BitVec.eq_of_toNat_eq
  have := id.isLt
  simp only [idHighByte, BitVec.toNat_setWidth, BitVec.toNat_ushiftRight, BitVec.extractLsb'_toNat,
    Nat.shiftRight_eq_div_pow]
  omega

/-! ### From a header to its fields and back (R114) -/

/-- Clearing bit 15 is reduction modulo `2 ^ 15`. -/
theorem toNat_and_0x7FFF (h : Header) : (h &&& 0x7FFF).toNat = h.toNat % 32768 :=
  Nat.and_two_pow_sub_one_eq_mod h.toNat 15

theorem packHeader_unpackHeader (h : Header) :
    packHeader (unpackHeader h).1 (unpackHeader h).2 = h &&& 0x7FFF := by
  apply BitVec.eq_of_toNat_eq
  rw [unpackHeader, packHeader_toNat, headerDlc_toNat, headerId_toNat, toNat_and_0x7FFF]
  omega

/-- The fields come back from a packed header, so they are determined by it. -/
theorem packHeader_inj {id id' : Ident} {d d' : DlcCode} (h : packHeader id d = packHeader id' d') :
    id = id' ∧ d = d' := by
  have hfields := congrArg unpackHeader h
  rwa [unpackHeader_packHeader, unpackHeader_packHeader, Prod.mk.injEq] at hfields

/-- The packed headers are those with bit 15 clear. -/
theorem toNat_le_0x7FFF_iff (h : Header) :
    h.toNat ≤ 0x7FFF ↔ ∃ (id : Ident) (d : DlcCode), packHeader id d = h := by
  constructor
  · intro hle
    refine ⟨_, _, (packHeader_unpackHeader h).trans (BitVec.eq_of_toNat_eq ?_)⟩
    rw [toNat_and_0x7FFF, Nat.mod_eq_of_lt (by omega)]
  · rintro ⟨id, d, rfl⟩
    have hid := id.isLt
    have hd := d.isLt
    rw [packHeader_toNat]
    omega

/-! ### From a request to its frame and back (R156) -/

/-- Bit 15 of a header is bit 7 of its second byte. -/
theorem hdrOfBytes_and_0x7FFF (b0 b1 : Byte) :
    hdrOfBytes b0 b1 &&& 0x7FFF = hdrOfBytes b0 (b1 &&& 0x7F) :=
  calc hdrOfBytes b0 b1 &&& hdrOfBytes (BitVec.allOnes 8) 0x7F
    _ = hdrOfBytes (b0 &&& BitVec.allOnes 8) (b1 &&& 0x7F) := BitVec.and_append
    _ = hdrOfBytes b0 (b1 &&& 0x7F) := by rw [BitVec.and_allOnes]

/-- What `serialize` writes of what `deserialize` read: the header without bit 15, and the payload. -/
theorem serialize_deserialize (bytes : List Byte) :
    serialize (deserialize bytes).1 (deserialize bytes).2.1 (deserialize bytes).2.2 =
      [bytes.getD 0 0, bytes.getD 1 0 &&& 0x7F] ++ (deserialize bytes).2.2 := by
  have hpack : packHeader (deserialize bytes).1 (deserialize bytes).2.1 =
      headerOf bytes &&& 0x7FFF := packHeader_unpackHeader (headerOf bytes)
  rw [serialize, hpack, headerOf, hdrOfBytes_and_0x7FFF, hdrBytes_hdrOfBytes]

/-! ### The contract of `transmit` (R166) -/

theorem isPacketLength_iff (n : Count) : isPacketLength n = true ↔ ∃ d, n = packetLength d := by
  constructor
  · intro h
    obtain ⟨k, -, hk⟩ := List.any_eq_true.mp h
    exact ⟨_, (beq_iff_eq.mp hk).symm⟩
  · rintro ⟨d, rfl⟩
    exact isPacketLength_packetLength d

theorem bufferFits_iff (b : List Byte) (n : Count) :
    bufferFits b n = true ↔ (∃ d, n = packetLength d) ∧ b.length = n.toNat := by
  rw [bufferFits, Bool.and_eq_true, isPacketLength_iff, beq_iff_eq]

end Sys2Proof

/-! SUPPORT. The statements that the spec derives about the pure functions (R102, R103, R112, R114, R156), and where
the boundary operations stop (R160, R162, R166). -/

namespace Sys2Proof.Machine

/-- Settles O59: one direction for a frame; the other from the header codec, whatever follows the payload. -/
theorem serializeAndDeserializeAreInverse : Obligations.SerializeAndDeserializeAreInverse :=
  ⟨fun id _ _ hlen => deserialize_serialize hlen id, fun bytes _ => serialize_deserialize bytes⟩

/-- Settles O2: the order comes from strictness; the pieces and the missing counts from the sixteen entries. -/
theorem byteCountTableProperties : Obligations.ByteCountTableProperties := by
  refine ⟨fun _ _ => byteCount_toNat_lt, fun _ _ => byteCount_toNat_le,
    fun _ _ h => byteCount_injective h, byteCount_toNat_of_le_eight, byteCount_toNat_of_le_twelve,
    byteCount_toNat_of_thirteen_le, length_counts_not_in_table, fun d => ?_⟩
  have hle := byteCount_le d
  have hlen := packetLength_toNat d
  exact ⟨hle, hlen, by omega, by omega⟩

/-- Settles O7: packing the two fields of a header drops bit 15 and nothing else. -/
theorem packAfterUnpack : Obligations.PackAfterUnpack :=
  ⟨packHeader_unpackHeader, fun _ _ _ _ => packHeader_inj, toNat_le_0x7FFF_iff⟩

/-- Settles O8: `hdrOfBytes` is the concatenation by definition; the bytes of a packed header are those that I1a
and I1b write. -/
theorem headerBytesRoundTrip : Obligations.HeaderBytesRoundTrip := by
  refine ⟨hdrBytes_eq_extractLsb', fun _ _ => rfl, hdrOfBytes_extractLsb', fun id d => ?_⟩
  rw [hdrBytes_packHeader, BitVec.or_comm, idHighByte_eq_setWidth, idLowByte, dlcInByte1]

/-! ### Operands outside a port's contract, and `deliver` while it is not enabled -/

theorem exec_deliver_of_not_payloadFits {d : DlcCode} {p : List Byte} (h : payloadFits d p = false)
    (id : Ident) (s : State) : exec (.deliver id d p) s = .refused .frameContract :=
  if_pos h

theorem exec_deliver_of_not_armed {d : DlcCode} {p : List Byte} {s : State}
    (h : payloadFits d p = true) (harmed : s.rxArmed = false) (id : Ident) :
    exec (.deliver id d p) s = .fault .deliverNotArmed :=
  (if_neg (by simp [h])).trans (if_pos harmed)

theorem exec_submit_of_not_payloadFits {d : DlcCode} {p : List Byte} (h : payloadFits d p = false)
    (id : Ident) (s : State) : exec (.submit id d p) s = .refused .frameContract :=
  if_neg (by simp [h])

theorem exec_transmit_of_not_bufferFits {b : List Byte} {n : Count} (h : ¬ bufferFits b n = true)
    (s : State) : exec (.transmit b n) s = .refused .packetContract :=
  if_neg h

/-- Settles O38: the operands are checked first; `deliver` then asks whether the port is armed. -/
theorem boundaryOperationsStop : Obligations.BoundaryOperationsStop := by
  refine ⟨fun s id d p hlen harmed => ?_, fun s id d p hlen => ?_, fun s b n hout => ?_⟩
  · exact exec_deliver_of_not_armed ((payloadFits_iff d p).mpr hlen) harmed id
  · have hmisfit : payloadFits d p = false :=
      Bool.eq_false_iff.mpr fun h => hlen ((payloadFits_iff d p).mp h)
    exact ⟨exec_deliver_of_not_payloadFits hmisfit id s,
      exec_submit_of_not_payloadFits hmisfit id s⟩
  · refine exec_transmit_of_not_bufferFits (fun hfits => ?_) s
    obtain ⟨⟨d, hn⟩, hlen⟩ := (bufferFits_iff b n).mp hfits
    obtain hnone | hne := hout
    · exact hnone d hn
    · exact hne hlen

end Sys2Proof.Machine
